-- ==== Sys2Proof/Word.lean ====
section
/-! DEFINITION. The word types of the block (spec/00_scope.md R9, R10, R13): bytes, 32-bit register words,
four-byte key words, sixteen-byte blocks. -/

namespace Sys2Proof

/-- A byte, 8 bits, unsigned (R9). -/
abbrev Byte := BitVec 8

/-- A 32-bit register word, unsigned (R9). -/
abbrev Word := BitVec 32

/-- A word of the key schedule as a sequence of four bytes, `w[i].b[0..3]` (R9, R13). -/
abbrev KeyWord := Vector Byte 4

/-- A 16-byte block, stored row-major: index `4*row + col` (R13, C1). -/
abbrev Block := Vector Byte 16

/-- The 16 raw key bytes `K[0..15]` (R13). -/
abbrev KeyBytes := Vector Byte 16

end Sys2Proof
end

