-- ==== Sys2Proof/Syntax.lean ====
section
/-! DEFINITION. The syntax: bus transactions (spec/30_encoding.md R70), the records that spell them (R71, R79), the register
map's names (spec/20_memory.md R52), the instructions (one constructor per row of spec/opcode_table.json) and the
assembler's forms (R83, R84). -/

namespace Sys2Proof

/-- A host transaction (R70). `we`: 1 = write. `size`: the access moves `2^size` bytes. -/
structure Txn where
  we    : Bool
  size  : BitVec 2
  addr  : BitVec 12
  wdata : Word
  deriving DecidableEq, Repr

/-- A round-key port request (R79): `sel` is rk_sel (false = 0 = RK, true = 1 = DRK), `idx` is rk_idx. -/
structure PortRequest where
  sel : Bool
  idx : BitVec 4
  deriving DecidableEq, Repr

/-- The written forms of what reaches the block: the 64-bit TXN64 record (R71), and the port request's 5-bit value
`rk_sel ++ rk_idx` (R79) carried in a byte whose upper three bits are 0 (log 1). -/
inductive Record where
  | txn64 (r : BitVec 64)
  | port  (q : BitVec 8)
  deriving DecidableEq, Repr

/-- Why a record spells no transaction. -/
inductive DecodeError where
  /-- TXN64 bit 62 or a bit of 59:44 is set (R71). -/
  | reservedBits
  /-- A TXN64 read record whose WDATA is not 0 (R71). -/
  | readWithData
  /-- A port byte with a bit above the 5-bit value set (log 1). -/
  | portHighBits
  deriving DecidableEq, Repr

/-- The registers of the window (R52). -/
inductive Target where
  | key (n : Fin 4)
  | cmd
  | status
  | expw (i : Fin 44)
  | rk (k : Fin 11) (r : Fin 4)
  | drk (k : Fin 11) (r : Fin 4)
  deriving DecidableEq, Repr

/-- One constructor per row of spec/opcode_table.json, in the table's order. -/
inductive Instr where
  | anyMisaligned (t : Txn)
  | anyBadsize (t : Txn)
  | rdKey (n : Fin 4)
  | wrKey (n : Fin 4) (data : Word)
  | rdCmd
  | expandEnc
  | expandDec
  | cmdIllegal (wdata : Word)
  | rdStatus
  | wrStatus (wdata : Word)
  | rdExpw (i : Fin 44)
  | wrExpw (i : Fin 44) (wdata : Word)
  | rdRk (k : Fin 11) (r : Fin 4)
  | wrRk (k : Fin 11) (r : Fin 4) (wdata : Word)
  | rdDrk (k : Fin 11) (r : Fin 4)
  | wrDrk (k : Fin 11) (r : Fin 4) (wdata : Word)
  | rdUnmapped (addr : BitVec 12)
  | wrUnmapped (addr : BitVec 12) (wdata : Word)
  | portRk (k : Fin 11)
  | portDrk (k : Fin 11)
  | portBadidx (sel : Bool) (idx : BitVec 4)
  deriving DecidableEq, Repr

/-- The row's mnemonic, letter for letter. -/
def Instr.mnemonic : Instr → String
  | .anyMisaligned _ => "ANY_MISALIGNED"
  | .anyBadsize _ => "ANY_BADSIZE"
  | .rdKey _ => "RD_KEY"
  | .wrKey _ _ => "WR_KEY"
  | .rdCmd => "RD_CMD"
  | .expandEnc => "EXPAND_ENC"
  | .expandDec => "EXPAND_DEC"
  | .cmdIllegal _ => "CMD_ILLEGAL"
  | .rdStatus => "RD_STATUS"
  | .wrStatus _ => "WR_STATUS"
  | .rdExpw _ => "RD_EXPW"
  | .wrExpw _ _ => "WR_EXPW"
  | .rdRk _ _ => "RD_RK"
  | .wrRk _ _ _ => "WR_RK"
  | .rdDrk _ _ => "RD_DRK"
  | .wrDrk _ _ _ => "WR_DRK"
  | .rdUnmapped _ => "RD_UNMAPPED"
  | .wrUnmapped _ _ => "WR_UNMAPPED"
  | .portRk _ => "PORT_RK"
  | .portDrk _ => "PORT_DRK"
  | .portBadidx _ _ => "PORT_BADIDX"

/-- Whether the instruction is a host transaction (a TXN64 row) and not a port request. -/
def Instr.isTransaction : Instr → Bool
  | .portRk _ | .portDrk _ | .portBadidx _ _ => false
  | .anyMisaligned _ | .anyBadsize _ | .rdKey _ | .wrKey _ _ | .rdCmd | .expandEnc | .expandDec | .cmdIllegal _
  | .rdStatus | .wrStatus _ | .rdExpw _ | .wrExpw _ _ | .rdRk _ _ | .wrRk _ _ _ | .rdDrk _ _ | .wrDrk _ _ _
  | .rdUnmapped _ | .wrUnmapped _ _ => true

/-- The assembler's forms (R83), as data. `rdSized`, `wrSized`: `rd.b`, `rd.h`, `wr.b`, `wr.h`. -/
inductive Asm where
  | rd (t : Target)
  | wr (t : Target) (imm : Word)
  | rdSized (half : Bool) (t : Target)
  | wrSized (half : Bool) (t : Target) (imm : Word)
  | rdAt (off : BitVec 12)
  | wrAt (off : BitVec 12) (imm : Word)
  | portRk (k : BitVec 4)
  | portDrk (k : BitVec 4)
  deriving DecidableEq, Repr

/-- The pseudo-instructions (R84). `loadkey` takes the key bytes its 32 hex digits spell. -/
inductive Pseudo where
  | loadkey (key : KeyBytes)
  | expandEnc
  | expandDec
  | clrerr
  | wait
  | check
  deriving DecidableEq, Repr

end Sys2Proof
end

