-- ==== Sys2Proof/WellFormed.lean ====
section
/-! DEFINITION. Which terms of Instr stand for a row of the opcode table: the conditions the table's rows carry in
"constraint" (spec/30_encoding.md R71, R74, R77, R78, R79, R82; spec/20_memory.md R53). -/

namespace Sys2Proof

/-- A TXN64 read record has WDATA = 0 (R71). -/
def Txn.spellable (t : Txn) : Bool := t.we || t.wdata == 0

/-- `ADDR[1:0] = 0` (R54). -/
def wordAligned (a : BitVec 12) : Bool := a.extractLsb' 0 2 == 0

/-- The aligned offsets R52 leaves unmapped: 0x018..0x0FC, 0x1B0..0x1FC, 0x2B0..0x2FC, 0x3B0..0xFFC (R53, R183). -/
def unmappedOffset (a : BitVec 12) : Bool :=
  wordAligned a &&
    ((0x018#12 ≤ a && a ≤ 0x0FC#12) || (0x1B0#12 ≤ a && a ≤ 0x1FC#12) || (0x2B0#12 ≤ a && a ≤ 0x2FC#12) || 0x3B0#12 ≤ a)

/-- The check of one instruction. -/
def Instr.wf : Instr → Bool
  | .anyMisaligned t => !wordAligned t.addr && t.spellable
  | .anyBadsize t => wordAligned t.addr && t.size != 2 && t.spellable
  | .cmdIllegal wdata => wdata != 1 && wdata != 2
  | .rdUnmapped addr => unmappedOffset addr
  | .wrUnmapped addr _ => unmappedOffset addr
  | .portBadidx _ idx => 11#4 ≤ idx
  | .rdKey _ | .wrKey _ _ | .rdCmd | .expandEnc | .expandDec | .rdStatus | .wrStatus _ | .rdExpw _ | .wrExpw _ _
  | .rdRk _ _ | .wrRk _ _ _ | .rdDrk _ _ | .wrDrk _ _ _ | .portRk _ | .portDrk _ => true

/-- The instruction stands for a row of the table. -/
abbrev WellFormed (i : Instr) : Prop := i.wf = true

end Sys2Proof
end

