-- ==== Sys2Proof/Decode.lean ====
section
/-! DEFINITION. The decoder, total and rejecting by name (spec/30_encoding.md R71, R79, R80, R82), the opcode table as data, and
the encoder. -/

namespace Sys2Proof

/-! ### The register map (R52, R53, R80) -/

/-- The byte offset of a register (R52). -/
def Target.offset : Target → BitVec 12
  | .key n => BitVec.ofNat 12 (4 * n.val)
  | .cmd => 0x010
  | .status => 0x014
  | .expw i => BitVec.ofNat 12 (0x100 + 4 * i.val)
  | .rk k r => BitVec.ofNat 12 (0x200 + 16 * k.val + 4 * r.val)
  | .drk k r => BitVec.ofNat 12 (0x300 + 16 * k.val + 4 * r.val)

/-- The round key and the row a window offset names: `k = (ADDR - base) >> 4` and `r = ADDR[3:2]` (R80). -/
def roundKeyIndex (a base : Nat) (h : a < base + 0xB0) (hb : base ≤ a) : Fin 11 × Fin 4 :=
  (⟨(a - base) / 16, by omega⟩, ⟨a / 4 % 4, by omega⟩)

/-- The register at an offset, none where the offset is not mapped (R52, R53, R80). -/
def regAt (addr : BitVec 12) : Option Target :=
  let a := addr.toNat
  if a % 4 ≠ 0 then none
  else if h : a < 0x010 then some (.key ⟨a / 4, by omega⟩)
  else if a = 0x010 then some .cmd
  else if a = 0x014 then some .status
  else if h : 0x100 ≤ a ∧ a < 0x1B0 then some (.expw ⟨(a - 0x100) / 4, by omega⟩)
  else if h : 0x200 ≤ a ∧ a < 0x2B0 then
    let kr := roundKeyIndex a 0x200 h.2 h.1
    some (.rk kr.1 kr.2)
  else if h : 0x300 ≤ a ∧ a < 0x3B0 then
    let kr := roundKeyIndex a 0x300 h.2 h.1
    some (.drk kr.1 kr.2)
  else none

/-! ### The record TXN64 (R71) -/

/-- The fields of a TXN64 record, or why it spells no transaction (R71). -/
def Txn.ofRecord (r : BitVec 64) : Except DecodeError Txn :=
  if r.extractLsb' 62 1 ≠ 0 ∨ r.extractLsb' 44 16 ≠ 0 then .error .reservedBits
  else
    let t : Txn :=
      { we := r.getLsbD 63, size := r.extractLsb' 60 2, addr := r.extractLsb' 32 12, wdata := r.extractLsb' 0 32 }
    if t.we = false ∧ t.wdata ≠ 0 then .error .readWithData else .ok t

/-- The TXN64 record of a transaction (R71). -/
def Txn.toRecord (t : Txn) : BitVec 64 :=
  BitVec.ofBool t.we ++ 0#1 ++ t.size ++ 0#16 ++ t.addr ++ t.wdata

/-! ### Decoding a transaction (R80, R82) -/

/-- The command written (R73, R74). -/
def decodeCmd (wdata : Word) : Instr :=
  if wdata = 1 then .expandEnc else if wdata = 2 then .expandDec else .cmdIllegal wdata

/-- Decode of a transaction, in the order of R82. -/
def decodeTxn (t : Txn) : Instr :=
  if t.addr.extractLsb' 0 2 ≠ 0 then .anyMisaligned t
  else if t.size ≠ 2 then .anyBadsize t
  else
    match regAt t.addr with
    | none => if t.we then .wrUnmapped t.addr t.wdata else .rdUnmapped t.addr
    | some (.key n) => if t.we then .wrKey n t.wdata else .rdKey n
    | some .cmd => if t.we then decodeCmd t.wdata else .rdCmd
    | some .status => if t.we then .wrStatus t.wdata else .rdStatus
    | some (.expw i) => if t.we then .wrExpw i t.wdata else .rdExpw i
    | some (.rk k r) => if t.we then .wrRk k r t.wdata else .rdRk k r
    | some (.drk k r) => if t.we then .wrDrk k r t.wdata else .rdDrk k r

/-! ### Decoding a port request (R79) -/

/-- The request a port byte spells (R79, log 1). -/
def PortRequest.ofByte (q : BitVec 8) : Except DecodeError PortRequest :=
  if q.extractLsb' 5 3 ≠ 0 then .error .portHighBits
  else .ok { sel := q.getLsbD 4, idx := q.extractLsb' 0 4 }

/-- The port byte of a request: `rk_sel ++ rk_idx` (R79). -/
def PortRequest.toByte (p : PortRequest) : BitVec 8 :=
  0#3 ++ BitVec.ofBool p.sel ++ p.idx

/-- Index values 0..10 name round keys, 11..15 name nothing (R79). -/
def decodePort (p : PortRequest) : Instr :=
  if h : p.idx.toNat < 11 then
    if p.sel then .portDrk ⟨p.idx.toNat, h⟩ else .portRk ⟨p.idx.toNat, h⟩
  else .portBadidx p.sel p.idx

/-- The decoder: total on every record. -/
def decode : Record → Except DecodeError Instr
  | .txn64 r =>
    match Txn.ofRecord r with
    | .ok t => .ok (decodeTxn t)
    | .error e => .error e
  | .port q =>
    match PortRequest.ofByte q with
    | .ok p => .ok (decodePort p)
    | .error e => .error e

/-! ### The encoder -/

/-- A 4-byte read of an offset (R83 `rd`). -/
def Txn.read (off : BitVec 12) : Txn := { we := false, size := 2, addr := off, wdata := 0 }

/-- A 4-byte write to an offset (R83 `wr`). -/
def Txn.write (off : BitVec 12) (v : Word) : Txn := { we := true, size := 2, addr := off, wdata := v }

/-- The record of an instruction, from the encodings of R171 to R186, R151 to R153 and R71. -/
def encode : Instr → Record
  | .anyMisaligned t => .txn64 t.toRecord
  | .anyBadsize t => .txn64 t.toRecord
  | .rdKey n => .txn64 (Txn.read (Target.key n).offset).toRecord
  | .wrKey n data => .txn64 (Txn.write (Target.key n).offset data).toRecord
  | .rdCmd => .txn64 (Txn.read Target.cmd.offset).toRecord
  | .expandEnc => .txn64 (Txn.write Target.cmd.offset 1).toRecord
  | .expandDec => .txn64 (Txn.write Target.cmd.offset 2).toRecord
  | .cmdIllegal wdata => .txn64 (Txn.write Target.cmd.offset wdata).toRecord
  | .rdStatus => .txn64 (Txn.read Target.status.offset).toRecord
  | .wrStatus wdata => .txn64 (Txn.write Target.status.offset wdata).toRecord
  | .rdExpw i => .txn64 (Txn.read (Target.expw i).offset).toRecord
  | .wrExpw i wdata => .txn64 (Txn.write (Target.expw i).offset wdata).toRecord
  | .rdRk k r => .txn64 (Txn.read (Target.rk k r).offset).toRecord
  | .wrRk k r wdata => .txn64 (Txn.write (Target.rk k r).offset wdata).toRecord
  | .rdDrk k r => .txn64 (Txn.read (Target.drk k r).offset).toRecord
  | .wrDrk k r wdata => .txn64 (Txn.write (Target.drk k r).offset wdata).toRecord
  | .rdUnmapped addr => .txn64 (Txn.read addr).toRecord
  | .wrUnmapped addr wdata => .txn64 (Txn.write addr wdata).toRecord
  | .portRk k => .port { sel := false, idx := BitVec.ofNat 4 k.val : PortRequest }.toByte
  | .portDrk k => .port { sel := true, idx := BitVec.ofNat 4 k.val : PortRequest }.toByte
  | .portBadidx sel idx => .port { sel := sel, idx := idx : PortRequest }.toByte

/-! ### The opcode table as data (R82's second reading of the decode) -/

/-- A TXN64 row of spec/opcode_table.json: it takes a record `r` when `r &&& mask = bits` and its constraint holds. -/
structure TableRow where
  mnemonic   : String
  bits       : BitVec 64
  mask       : BitVec 64
  constraint : BitVec 64 → Bool

/-- ADDR of a record as a number. -/
def recordAddr (r : BitVec 64) : Nat := (r.extractLsb' 32 12).toNat

/-- A read record has WDATA = 0 (the constraint of the rows ANY_MISALIGNED and ANY_BADSIZE). -/
def readDataZero (r : BitVec 64) : Bool := r.getLsbD 63 || r.extractLsb' 0 32 == 0

/-- "ADDR[1:0] = 0 and ADDR not mapped", as the rows RD_UNMAPPED and WR_UNMAPPED list it. -/
def unmappedRange (r : BitVec 64) : Bool :=
  let a := recordAddr r
  a % 4 == 0 && ((0x018 ≤ a && a ≤ 0x0FC) || (0x1B0 ≤ a && a ≤ 0x1FC) || (0x2B0 ≤ a && a ≤ 0x2FC) || (0x3B0 ≤ a && a ≤ 0xFFC))

/-- The TXN64 rows, in decode_order. -/
def opcodeRows : List TableRow :=
  [ ⟨"ANY_MISALIGNED", 0x0000000000000000, 0x4FFFF00000000000, fun r => recordAddr r % 4 != 0 && readDataZero r⟩,
    ⟨"ANY_BADSIZE", 0x0000000000000000, 0x4FFFF00300000000, fun r => recordAddr r % 4 == 0 && r.extractLsb' 60 2 != 2 && readDataZero r⟩,
    ⟨"RD_KEY", 0x2000000000000000, 0xFFFFFFF3FFFFFFFF, fun _ => true⟩,
    ⟨"WR_KEY", 0xA000000000000000, 0xFFFFFFF300000000, fun _ => true⟩,
    ⟨"RD_CMD", 0x2000001000000000, 0xFFFFFFFFFFFFFFFF, fun _ => true⟩,
    ⟨"EXPAND_ENC", 0xA000001000000001, 0xFFFFFFFFFFFFFFFF, fun _ => true⟩,
    ⟨"EXPAND_DEC", 0xA000001000000002, 0xFFFFFFFFFFFFFFFF, fun _ => true⟩,
    ⟨"CMD_ILLEGAL", 0xA000001000000000, 0xFFFFFFFF00000000, fun r => r.extractLsb' 0 32 != 1 && r.extractLsb' 0 32 != 2⟩,
    ⟨"RD_STATUS", 0x2000001400000000, 0xFFFFFFFFFFFFFFFF, fun _ => true⟩ ] ++
  [ ⟨"WR_STATUS", 0xA000001400000000, 0xFFFFFFFF00000000, fun _ => true⟩,
    ⟨"RD_EXPW", 0x2000010000000000, 0xFFFFFF03FFFFFFFF, fun r => 0x100 ≤ recordAddr r && recordAddr r ≤ 0x1AC⟩,
    ⟨"WR_EXPW", 0xA000010000000000, 0xFFFFFF0300000000, fun r => 0x100 ≤ recordAddr r && recordAddr r ≤ 0x1AC⟩,
    ⟨"RD_RK", 0x2000020000000000, 0xFFFFFF03FFFFFFFF, fun r => 0x200 ≤ recordAddr r && recordAddr r ≤ 0x2AC⟩,
    ⟨"WR_RK", 0xA000020000000000, 0xFFFFFF0300000000, fun r => 0x200 ≤ recordAddr r && recordAddr r ≤ 0x2AC⟩,
    ⟨"RD_DRK", 0x2000030000000000, 0xFFFFFF03FFFFFFFF, fun r => 0x300 ≤ recordAddr r && recordAddr r ≤ 0x3AC⟩,
    ⟨"WR_DRK", 0xA000030000000000, 0xFFFFFF0300000000, fun r => 0x300 ≤ recordAddr r && recordAddr r ≤ 0x3AC⟩,
    ⟨"RD_UNMAPPED", 0x2000000000000000, 0xFFFFF003FFFFFFFF, unmappedRange⟩,
    ⟨"WR_UNMAPPED", 0xA000000000000000, 0xFFFFF00300000000, unmappedRange⟩ ]

/-- A row takes a record (R82). -/
def TableRow.takes (row : TableRow) (r : BitVec 64) : Bool := r &&& row.mask == row.bits && row.constraint r

/-- "The record decodes to the first row for which (record & mask) = match holds and its constraint, if any, holds" (R82). -/
def tableMnemonic (r : BitVec 64) : Option String := (opcodeRows.find? fun row => row.takes r).map TableRow.mnemonic

/-- The PORT rows of spec/opcode_table.json on the 5-bit value in its byte: mnemonic, match, mask, and the range of rk_idx. -/
def portRows : List (String × BitVec 8 × BitVec 8 × (Nat → Bool)) :=
  [ ("PORT_RK", 0x00, 0x10, fun idx => idx ≤ 10),
    ("PORT_DRK", 0x10, 0x10, fun idx => idx ≤ 10),
    ("PORT_BADIDX", 0x08, 0x08, fun idx => 11 ≤ idx) ]

/-- The first PORT row that takes the byte. -/
def portTableMnemonic (q : BitVec 8) : Option String :=
  (portRows.find? fun row => q &&& row.2.2.1 == row.2.1 && row.2.2.2 (q.extractLsb' 0 4).toNat).map Prod.fst

/-! ### The host's numbering -/

/-- The record of `nbits` table bits whose value is `w`: a PORT row has 5 bits, one byte; a TXN64 row 64 (log 15). A value
that does not fit the port's byte becomes a byte the decoder refuses. -/
def tableRecord (nbits w : Nat) : Record :=
  if nbits ≤ 32 then .port (BitVec.ofNat 8 (min w 255)) else .txn64 (BitVec.ofNat 64 w)

/-- The instruction the decoder reads from the `nbits` table bits `w`. -/
def decodeTableWord (nbits w : Nat) : Option Instr :=
  match decode (tableRecord nbits w) with
  | .ok i => some i
  | .error _ => none

end Sys2Proof
end

