-- ==== Sys2Proof/Machine/Operands.lean ====
section
/-! DEFINITION. The operand forms: how key bytes sit in registers and on the port (spec/00_scope.md R10, spec/20_memory.md R51,
R52, R66). -/

namespace Sys2Proof.Machine

/-- `pack32(b0, b1, b2, b3) = b0 ++ b1 ++ b2 ++ b3` (R10): byte 0 in bits 31:24. -/
def pack32 (a : KeyWord) : Word := a[0] ++ a[1] ++ a[2] ++ a[3]

/-- `unpack32(v) = (v[31:24], v[23:16], v[15:8], v[7:0])` (R10). -/
def unpack32 (v : Word) : KeyWord :=
  #v[v.extractLsb' 24 8, v.extractLsb' 16 8, v.extractLsb' 8 8, v.extractLsb' 0 8]

/-- `pack128(B) = B[0] ++ ... ++ B[15]`, B[0] in bits 127:120 (R10, R66). -/
def pack128 (x : Block) : BitVec 128 :=
  x[0] ++ x[1] ++ x[2] ++ x[3] ++ x[4] ++ x[5] ++ x[6] ++ x[7] ++
    x[8] ++ x[9] ++ x[10] ++ x[11] ++ x[12] ++ x[13] ++ x[14] ++ x[15]

/-- Row r of a block, `(X[4r], X[4r+1], X[4r+2], X[4r+3])` (R13, R52). -/
def blockRow (x : Block) (r : Fin 4) : KeyWord := Vector.ofFn fun c => x[4 * r.val + c.val]

/-- `unpack32(KEY[0]) ++ unpack32(KEY[1]) ++ unpack32(KEY[2]) ++ unpack32(KEY[3])` (R154): the key K (R21). -/
def keyBytes (key : Vector Word 4) : KeyBytes := Vector.ofFn fun n => (unpack32 key[n.val / 4])[n.val % 4]

/-- The four register words of a 16-byte key: `KEY[n] = pack32(K[4n], ..., K[4n+3])` (R21, R51). -/
def keyRegisters (k : KeyBytes) : Vector Word 4 := Vector.ofFn fun n => pack32 (blockRow k n)

end Sys2Proof.Machine
end

