-- ==== Sys2Proof/Config.lean ====
section
/-! DEFINITION. What an implementation fixes (spec/00_scope.md R8, spec/10_state.md R20) and the free values. None of the
opaque constants has a body: no proof can see a value. -/

namespace Sys2Proof

/-- Where the platform places the 4 KiB window, in units of 4 KiB (R8, R50, U3: `BASE` is open and 4 KiB-aligned; log 11). -/
opaque Config.basePage : Nat

/-- `BASE` (R8): the platform address of offset 0. -/
def Config.base : Nat := 4096 * Config.basePage

/-- LAT_ENC less one (R8, R155: an open integer >= 1; log 11). -/
opaque Config.latEncLessOne : Nat

/-- LAT_DEC less one (R8, R155: an open integer >= 1; log 11). -/
opaque Config.latDecLessOne : Nat

/-- `LAT_ENC` (R8): clock cycles from an accepted EXPAND_ENC to its completion, at least 1. -/
def Config.latEnc : Nat := Config.latEncLessOne + 1

/-- `LAT_DEC` (R8): clock cycles from an accepted EXPAND_DEC to its completion, at least 1. -/
def Config.latDec : Nat := Config.latDecLessOne + 1

/-- FREE VALUE: what W[i] holds while the contents of W are unspecified (R31, U1 "any value"; log 6). -/
opaque Config.unspecifiedWord : Nat → Word

/-- FREE VALUE: the round-constant entries the expansion never reads, 0 and those above 10 (R106, R132, I1; log 9). -/
opaque Config.rconUnread : Nat → Byte

end Sys2Proof
end

