-- ==== Sys2Proof/Machine/Transforms.lean ====
section
/-! DEFINITION. The byte and word transforms (spec/40_transforms.md R100 to R111). Pure functions, no state. -/

namespace Sys2Proof.Machine

/-! ### GF(2^8) (R100 to R103) -/

/-- Multiplication by x with reduction byte 0x1b (R102). -/
def xtime (a : Byte) : Byte := if a.getLsbD 7 then (a <<< 1) ^^^ 0x1b else a <<< 1

/-- `n` rounds of the loop of R101 from the product so far `p`. -/
def gmulLoop : Nat → Byte → Byte → Byte → Byte
  | 0, p, _, _ => p
  | n + 1, p, a, b => gmulLoop n (if b.getLsbD 0 then p ^^^ a else p) (xtime a) (b >>> 1)

/-- `gmul(a, b)`, the product in GF(2^8) modulo 0x11b (R101). -/
def gmul (a b : Byte) : Byte := gmulLoop 8 0 a b

/-! ### The forward S-box (R104) -/

/-- The table of R104: row H, column L for x = 0xHL. The values are the spec's, from general knowledge by its own word (G1,
log 10). -/
def sboxRows : Vector (Vector Byte 16) 16 :=
  (#v[
    #v[0x63, 0x7c, 0x77, 0x7b, 0xf2, 0x6b, 0x6f, 0xc5, 0x30, 0x01, 0x67, 0x2b, 0xfe, 0xd7, 0xab, 0x76],
    #v[0xca, 0x82, 0xc9, 0x7d, 0xfa, 0x59, 0x47, 0xf0, 0xad, 0xd4, 0xa2, 0xaf, 0x9c, 0xa4, 0x72, 0xc0],
    #v[0xb7, 0xfd, 0x93, 0x26, 0x36, 0x3f, 0xf7, 0xcc, 0x34, 0xa5, 0xe5, 0xf1, 0x71, 0xd8, 0x31, 0x15],
    #v[0x04, 0xc7, 0x23, 0xc3, 0x18, 0x96, 0x05, 0x9a, 0x07, 0x12, 0x80, 0xe2, 0xeb, 0x27, 0xb2, 0x75],
    #v[0x09, 0x83, 0x2c, 0x1a, 0x1b, 0x6e, 0x5a, 0xa0, 0x52, 0x3b, 0xd6, 0xb3, 0x29, 0xe3, 0x2f, 0x84],
    #v[0x53, 0xd1, 0x00, 0xed, 0x20, 0xfc, 0xb1, 0x5b, 0x6a, 0xcb, 0xbe, 0x39, 0x4a, 0x4c, 0x58, 0xcf],
    #v[0xd0, 0xef, 0xaa, 0xfb, 0x43, 0x4d, 0x33, 0x85, 0x45, 0xf9, 0x02, 0x7f, 0x50, 0x3c, 0x9f, 0xa8],
    #v[0x51, 0xa3, 0x40, 0x8f, 0x92, 0x9d, 0x38, 0xf5, 0xbc, 0xb6, 0xda, 0x21, 0x10, 0xff, 0xf3, 0xd2]] : Vector (Vector Byte 16) 8) ++
  (#v[
    #v[0xcd, 0x0c, 0x13, 0xec, 0x5f, 0x97, 0x44, 0x17, 0xc4, 0xa7, 0x7e, 0x3d, 0x64, 0x5d, 0x19, 0x73],
    #v[0x60, 0x81, 0x4f, 0xdc, 0x22, 0x2a, 0x90, 0x88, 0x46, 0xee, 0xb8, 0x14, 0xde, 0x5e, 0x0b, 0xdb],
    #v[0xe0, 0x32, 0x3a, 0x0a, 0x49, 0x06, 0x24, 0x5c, 0xc2, 0xd3, 0xac, 0x62, 0x91, 0x95, 0xe4, 0x79],
    #v[0xe7, 0xc8, 0x37, 0x6d, 0x8d, 0xd5, 0x4e, 0xa9, 0x6c, 0x56, 0xf4, 0xea, 0x65, 0x7a, 0xae, 0x08],
    #v[0xba, 0x78, 0x25, 0x2e, 0x1c, 0xa6, 0xb4, 0xc6, 0xe8, 0xdd, 0x74, 0x1f, 0x4b, 0xbd, 0x8b, 0x8a],
    #v[0x70, 0x3e, 0xb5, 0x66, 0x48, 0x03, 0xf6, 0x0e, 0x61, 0x35, 0x57, 0xb9, 0x86, 0xc1, 0x1d, 0x9e],
    #v[0xe1, 0xf8, 0x98, 0x11, 0x69, 0xd9, 0x8e, 0x94, 0x9b, 0x1e, 0x87, 0xe9, 0xce, 0x55, 0x28, 0xdf],
    #v[0x8c, 0xa1, 0x89, 0x0d, 0xbf, 0xe6, 0x42, 0x68, 0x41, 0x99, 0x2d, 0x0f, 0xb0, 0x54, 0xbb, 0x16]] : Vector (Vector Byte 16) 8)

/-- `sbox(x)` (R104). -/
def sbox (x : Byte) : Byte := sboxRows[x.toNat / 16][x.toNat % 16]

/-- The multiplicative inverse, with inv(0) = 0 (R105), as the power 254: the nonzero bytes form a group of order 255. -/
def gfInv (x : Byte) : Byte :=
  let x2 := gmul x x
  let x4 := gmul x2 x2
  let x8 := gmul x4 x4
  let x16 := gmul x8 x8
  let x32 := gmul x16 x16
  let x64 := gmul x32 x32
  let x128 := gmul x64 x64
  gmul x128 (gmul x64 (gmul x32 (gmul x16 (gmul x8 (gmul x4 x2)))))

/-- The affine map `A(b)` of R105. -/
def sboxAffine (b : Byte) : Byte :=
  b ^^^ b.rotateLeft 1 ^^^ b.rotateLeft 2 ^^^ b.rotateLeft 3 ^^^ b.rotateLeft 4 ^^^ 0x63

/-! ### Round constants (R106) -/

/-- The entries the expansion reads, rcon(1) to rcon(10) (R106). -/
def rconTable : Vector Byte 10 := #v[0x01, 0x02, 0x04, 0x08, 0x10, 0x20, 0x40, 0x80, 0x1b, 0x36]

/-- `rcon(j)` for j in 1..10 (R106). Outside that range it is a free value: no rule reads it (I1, log 9). -/
def rcon (j : Nat) : Byte := if h : 1 ≤ j ∧ j ≤ 10 then rconTable[j - 1] else Config.rconUnread j

/-! ### Word transforms (R107 to R109) -/

/-- `RotWord(a) = (a.b[1], a.b[2], a.b[3], a.b[0])` (R107). -/
def rotWord (a : KeyWord) : KeyWord := #v[a[1], a[2], a[3], a[0]]

/-- `SubWord(a)`: each byte through the S-box (R108). -/
def subWord (a : KeyWord) : KeyWord := #v[sbox a[0], sbox a[1], sbox a[2], sbox a[3]]

/-- `^` on words, bytewise (R131). -/
def xorWord (a b : KeyWord) : KeyWord := #v[a[0] ^^^ b[0], a[1] ^^^ b[1], a[2] ^^^ b[2], a[3] ^^^ b[3]]

/-- `T(a, i)` (R109): only byte 0 takes the round constant `rcon(i / 4)`. -/
def transformT (a : KeyWord) (i : Nat) : KeyWord :=
  let t := subWord (rotWord a)
  #v[t[0] ^^^ rcon (i / 4), t[1], t[2], t[3]]

/-! ### Inverse column mix (R110, R111) -/

/-- `InvMixCol(c)` (R110). -/
def invMixCol (a : KeyWord) : KeyWord :=
  #v[gmul 14 a[0] ^^^ gmul 11 a[1] ^^^ gmul 13 a[2] ^^^ gmul 9 a[3],
     gmul 9 a[0] ^^^ gmul 14 a[1] ^^^ gmul 11 a[2] ^^^ gmul 13 a[3],
     gmul 13 a[0] ^^^ gmul 9 a[1] ^^^ gmul 14 a[2] ^^^ gmul 11 a[3],
     gmul 11 a[0] ^^^ gmul 13 a[1] ^^^ gmul 9 a[2] ^^^ gmul 14 a[3]]

/-- Column c of a block, `(X[c], X[4+c], X[8+c], X[12+c])` (R111). -/
def blockColumn (x : Block) (c : Fin 4) : KeyWord := #v[x[c.val], x[4 + c.val], x[8 + c.val], x[12 + c.val]]

/-- `InvMixColumns(X)` (R111): row `n / 4` of the mixed column `n % 4` at index n. -/
def invMixColumns (x : Block) : Block :=
  Vector.ofFn fun n => (invMixCol (blockColumn x ⟨n.val % 4, by omega⟩))[n.val / 4]

end Sys2Proof.Machine
end

