-- ==== Sys2Proof/Machine/Expansion.lean ====
section
/-! DEFINITION. The three functions the engine computes: Expand, Repack, DecPass (spec/41_expansion.md R130 to R139). -/

namespace Sys2Proof.Machine

/-- Words 0..3: `w[i].b[j] = K[4i + j]` (R130). -/
def keyWords (k : KeyBytes) : Vector KeyWord 4 := Vector.ofFn fun i => blockRow k i

/-- The first `4 + n` words of the expansion: word `i = 4 + n` comes from words `i - 4` and `i - 1` (R131). -/
def expandTo (k : KeyBytes) : (n : Nat) → Vector KeyWord (4 + n)
  | 0 => keyWords k
  | n + 1 =>
    let w := expandTo k n
    w.push (xorWord w[n] (if (4 + n) % 4 = 0 then transformT w[n + 3] (4 + n) else w[n + 3]))

/-- `Expand(K)`: the 44 words w[0..43] (R130, R131, R133). -/
def expand (k : KeyBytes) : Vector KeyWord 44 := expandTo k 40

/-- The expanded key `E[4i + j] = w[i].b[j]`, 176 bytes (R134). -/
def expandedBytes (w : Vector KeyWord 44) : Vector Byte 176 := Vector.ofFn fun n => w[n.val / 4][n.val % 4]

/-- `Repack(w)`: `RK[k][4*j + i] = E[16*k + 4*i + j]` (R135); at index n, `j = n / 4` and `i = n % 4`. -/
def repack (w : Vector KeyWord 44) : Vector Block 11 :=
  let e := expandedBytes w
  Vector.ofFn fun k => Vector.ofFn fun n => e[16 * k.val + 4 * (n.val % 4) + n.val / 4]

/-- `DecPass(RK)`: InvMixColumns on round keys 1..9 (R137). -/
def decPass (rk : Vector Block 11) : Vector Block 11 :=
  Vector.ofFn fun k => if 1 ≤ k.val ∧ k.val ≤ 9 then invMixColumns rk[k] else rk[k]

/-- The 44 register words the engine stores for a key: `W[i] = pack32(w[i].b[0..3])` (R133, R154). -/
def expandedRegisters (k : KeyBytes) : Vector Word 44 := (expand k).map pack32

end Sys2Proof.Machine
end

