-- ==== Sys2Proof/Machine/State.lean ====
section
/-! DEFINITION. The state (spec/10_state.md R20 to R39), the reasons a step can stop, and the state after reset. -/

namespace Sys2Proof.Machine

/-- The response of a bus transaction (R70, R187): `err` is ERRRESP, `rdata` is RDATA. -/
structure Response where
  err   : Bool
  rdata : Word
  deriving DecidableEq, Repr

/-- What the world outside the block does next (R14, R209; log 2): present a record on a port, let a clock cycle pass, or
assert reset. -/
inductive Stimulus where
  | record (r : Record)
  | clock
  | reset
  deriving DecidableEq, Repr

/-- The state. The fields from `key` to `cnt` are the block's own, all of R20; the rest is the block's outside world, held
as data (log 2, 7, 8). -/
structure State where
  /-- KEY[0..3] (R21). -/
  key      : Vector Word 4
  /-- KEYMASK (R22). -/
  keymask  : BitVec 4
  /-- BUSY (R23). -/
  busy     : Bool
  /-- OP (R24). -/
  op       : BitVec 2
  /-- ENC_VALID (R25). -/
  encValid : Bool
  /-- DEC_VALID (R26). -/
  decValid : Bool
  /-- ERR (R27). -/
  err      : Bool
  /-- ERRCODE (R28). -/
  errcode  : BitVec 4
  /-- W[0..43] (R31); none while its contents are unspecified (R31, U1; log 6). -/
  w        : Option (Vector Word 44)
  /-- CNT (R36), the engine's cycles left (log 3, 5). -/
  cnt      : Nat
  /-- The response given in the step just taken, none when it was no transaction (R187; log 7). -/
  resp     : Option Response
  /-- rk_sel and rk_idx as the consumer now drives them (R79; log 8). -/
  portReq  : PortRequest
  /-- What the outside world does next, in order (R60; log 2). -/
  inbox    : List Stimulus
  deriving DecidableEq, Repr

/-- The block never stops with a fault: it raises no trap (R200) and never stops accepting transactions (R207). Nothing
raises a fault, so there is no constructor. -/
inductive Fault where
  deriving DecidableEq, Repr

/-- Why a step has no meaning. -/
inductive Refusal where
  /-- Raised by an arm of exec that has no meaning yet. Safe: nothing can be proved of it. -/
  | notModelled (mnemonic : String)
  /-- Raised by `step` on a record that spells no transaction (R71 "a trace decoder refuses it"). Safe: no hardware
  transaction stands behind such a record. -/
  | notATransaction (why : DecodeError)
  deriving DecidableEq, Repr

/-- What an instruction's meaning answers. -/
abbrev Result := Host.Outcome State Fault Refusal

/-- The state right after reset (R39). `w`: unspecified. `cnt`: log 5. `resp`, `portReq`, `inbox`: log 7, 8, 2. -/
def State.reset : State where
  key      := #v[0, 0, 0, 0]
  keymask  := 0
  busy     := false
  op       := 0
  encValid := false
  decValid := false
  err      := false
  errcode  := 0
  w        := none
  cnt      := 0
  resp     := none
  portReq  := { sel := false, idx := 0 }
  inbox    := []

end Sys2Proof.Machine
end

