-- ==== Sys2Proof/Machine/Flags.lean ====
section
/-! DEFINITION. The STATUS register (spec/10_state.md R29) and the flag computations. -/

namespace Sys2Proof.Machine

/-- The error codes (R204). -/
inductive ErrCode where
  | align
  | size
  | addr
  | access
  | busy
  | notReady
  | cmd
  | key
  deriving DecidableEq, Repr

/-- The value ERRCODE takes (R204). -/
def errorCode : ErrCode → BitVec 4
  | .align => 1
  | .size => 2
  | .addr => 3
  | .access => 4
  | .busy => 5
  | .notReady => 6
  | .cmd => 7
  | .key => 8

/-- The STATUS read value: `zext_32(OP ++ ERRCODE ++ KEYMASK ++ ERR ++ DEC_VALID ++ ENC_VALID ++ BUSY)` (R29, R175). -/
def statusWord (s : State) : Word :=
  (s.op ++ s.errcode ++ s.keymask ++ BitVec.ofBool s.err ++ BitVec.ofBool s.decValid ++ BitVec.ofBool s.encValid ++
    BitVec.ofBool s.busy).setWidth 32

/-- KEYMASK with bit n set (R22, R172). -/
def keymaskWith (m : BitVec 4) (n : Fin 4) : BitVec 4 := m ||| (1#4 <<< n.val)

/-- Every KEY register has been written since reset (R22, R150). -/
def keyComplete (s : State) : Bool := s.keymask == 0xF

/-- ERR_CLR, bit 3 of a STATUS write (R75). -/
def errClr (wdata : Word) : Bool := wdata.getLsbD 3

/-- The legal command values (R73, R74). -/
def legalCommand (wdata : Word) : Bool := wdata == 1 || wdata == 2

/-- CNT's value when a command with opcode `op` is accepted: `OP = 1 ? LAT_ENC : LAT_DEC` (R150). -/
def commandLatency (op : BitVec 2) : Nat := if op = 1 then Config.latEnc else Config.latDec

end Sys2Proof.Machine
end

