-- ==== Sys2Proof/Machine/Ops.lean ====
section
/-! DEFINITION. The named operations over the state that the meanings share: responses, the rejection of a transaction
(spec/60_exceptions.md R202) and its clearing (R206), the key registers, the command port, the views of W, the round-key port. -/

namespace Sys2Proof.Machine

/-! ### The outside world -/

/-- The state with what the outside world does next replaced. -/
def State.withInbox (s : State) (q : List Stimulus) : State := { s with inbox := q }

/-- The state with a record put first among what happens next. -/
def State.pushRecord (s : State) (r : Record) : State := s.withInbox (.record r :: s.inbox)

/-- No response in this step: it is no transaction (R154, R187). -/
def State.silent (s : State) : State := { s with resp := none }

/-! ### Responses (R187) -/

/-- `respond(ok, v)`. -/
def respondOk (v : Word) (s : State) : State := { s with resp := some { err := false, rdata := v } }

/-! ### Rejection: the block's exception, and its clearing -/

/-- The error record of R202: the first error since the last clear is kept. -/
def recordError (c : ErrCode) (s : State) : State :=
  if s.err then s else { s with err := true, errcode := errorCode c }

/-- `raise BusError(code)` (R202): record the code, respond with ERRRESP = 1 and RDATA = 0. Nothing else changes (R201). -/
def raiseBusError (c : ErrCode) (s : State) : State :=
  { recordError c s with resp := some { err := true, rdata := 0 } }

/-- ERR and ERRCODE cleared together (R176, R206). -/
def clearError (s : State) : State := { s with err := false, errcode := 0 }

/-! ### Key registers (R172) -/

/-- ENC_VALID and DEC_VALID cleared; the contents of W are then unspecified (R25, R26, R31). -/
def invalidate (s : State) : State := { s with encValid := false, decValid := false, w := none }

/-- KEY[n] and KEYMASK[n] written (R172). -/
def storeKey (n : Fin 4) (v : Word) (s : State) : State :=
  { s with key := s.key.set n.val v, keymask := keymaskWith s.keymask n }

/-- The KEY write of R172. -/
def keyWrite (n : Fin 4) (v : Word) (s : State) : State :=
  if s.busy then raiseBusError .busy s else respondOk 0 (invalidate (storeKey n v s))

/-! ### The command port (R150) -/

/-- An accepted command: OP, BUSY and CNT (R150). -/
def startEngine (op : BitVec 2) (s : State) : State := { s with op := op, busy := true, cnt := commandLatency op }

/-- `CmdWrite(WDATA)` (R150), its checks in order. -/
def cmdWrite (wdata : Word) (s : State) : State :=
  if s.busy then raiseBusError .busy s
  else if !legalCommand wdata then raiseBusError .cmd s
  else if !keyComplete s then raiseBusError .key s
  else respondOk 0 (invalidate (startEngine (wdata.extractLsb' 0 2) s))

/-! ### The views of W (R31, R32, R33) -/

/-- W[i]; a free value while the contents of W are unspecified (U1, log 6). -/
def State.wReg (s : State) (i : Fin 44) : Word :=
  match s.w with
  | some v => v[i]
  | none => Config.unspecifiedWord i.val

/-- The key-schedule words w[0..43] that W holds: `W[i] = pack32(w[i].b[0..3])` (R31). -/
def State.words (s : State) : Vector KeyWord 44 := Vector.ofFn fun i => unpack32 (s.wReg i)

/-- `RK = Repack(W)` (R32). -/
def State.rk (s : State) : Vector Block 11 := repack s.words

/-- `DRK = DecPass(Repack(W))` (R33). -/
def State.drk (s : State) : Vector Block 11 := decPass s.rk

/-- A read of an output window (R177, R179, R181): ERR_BUSY while a command runs, ERR_NOTREADY while `valid` is 0. -/
def windowRead (valid : Bool) (v : Word) (s : State) : State :=
  if s.busy then raiseBusError .busy s
  else if !valid then raiseBusError .notReady s
  else respondOk v s

/-! ### The round-key port (R184, R185, R186) -/

/-- rk_valid for a request: `(BUSY = 0) and (VALID = 1) and (rk_idx <= 10)`. -/
def portValid (s : State) (p : PortRequest) : Bool :=
  !s.busy && (if p.sel then s.decValid else s.encValid) && p.idx.toNat ≤ 10

/-- rk_data for a request: the block packed, 0 when rk_valid is 0. -/
def portData (s : State) (p : PortRequest) : BitVec 128 :=
  if portValid s p then
    if h : p.idx.toNat < 11 then pack128 (if p.sel then s.drk[p.idx.toNat] else s.rk[p.idx.toNat]) else 0
  else 0

/-- The output rk_valid now: combinational in the state and the request now driven (R184). -/
def State.rkValid (s : State) : Bool := portValid s s.portReq

/-- The output rk_data now. -/
def State.rkData (s : State) : BitVec 128 := portData s s.portReq

/-- The consumer drives a request; the step is no transaction (R184: no side effect, no error). -/
def drivePort (p : PortRequest) (s : State) : State := { s.silent with portReq := p }

end Sys2Proof.Machine
end

