-- ==== Sys2Proof/Machine/Command.lean ====
section
/-! DEFINITION. The command port: RD_CMD, EXPAND_ENC, EXPAND_DEC, CMD_ILLEGAL (spec/43_register_access.md R173, R174;
spec/42_commands.md R150 to R153). -/

namespace Sys2Proof.Machine

/-- RD_CMD (R173): always ERR_ACCESS. -/
def execRdCmd (s : State) : Result := .next (raiseBusError .access s)

/-- EXPAND_ENC (R151): the CMD write of 0x00000001. -/
def execExpandEnc (s : State) : Result := .next (cmdWrite 0x00000001 s)

/-- EXPAND_DEC (R152): the CMD write of 0x00000002. -/
def execExpandDec (s : State) : Result := .next (cmdWrite 0x00000002 s)

/-- CMD_ILLEGAL (R153): the CMD write of any other value, ERR_CMD, or ERR_BUSY when BUSY = 1. -/
def execCmdIllegal (wdata : Word) (s : State) : Result := .next (cmdWrite wdata s)

end Sys2Proof.Machine
end

