-- ==== Sys2Proof/Machine/KeyRegs.lean ====
section
/-! DEFINITION. The key registers: RD_KEY, WR_KEY (spec/43_register_access.md R171, R172). -/

namespace Sys2Proof.Machine

/-- RD_KEY (R171): `respond(ok, KEY[n])`, also while BUSY = 1. -/
def execRdKey (n : Fin 4) (s : State) : Result := .next (respondOk s.key[n] s)

/-- WR_KEY (R172). -/
def execWrKey (n : Fin 4) (data : Word) (s : State) : Result := .next (keyWrite n data s)

end Sys2Proof.Machine
end

