-- ==== Sys2Proof/Machine/Port.lean ====
section
/-! DEFINITION. The round-key port requests: PORT_RK, PORT_DRK, PORT_BADIDX (spec/43_register_access.md R184 to R186). The
outputs are State.rkValid and State.rkData of the state the request is driven in. -/

namespace Sys2Proof.Machine

/-- PORT_RK (R184): rk_sel = 0, rk_idx = k. -/
def execPortRk (k : Fin 11) (s : State) : Result :=
  .next (drivePort { sel := false, idx := BitVec.ofNat 4 k.val } s)

/-- PORT_DRK (R185): rk_sel = 1, rk_idx = k. -/
def execPortDrk (k : Fin 11) (s : State) : Result :=
  .next (drivePort { sel := true, idx := BitVec.ofNat 4 k.val } s)

/-- PORT_BADIDX (R186): a request whose index names nothing. -/
def execPortBadidx (sel : Bool) (idx : BitVec 4) (s : State) : Result :=
  .next (drivePort { sel := sel, idx := idx } s)

end Sys2Proof.Machine
end

