-- ==== Sys2Proof/Machine/Rejected.lean ====
section
/-! DEFINITION. The transactions the decode itself rejects: ANY_MISALIGNED, ANY_BADSIZE (spec/30_encoding.md R82;
spec/20_memory.md R54, R55), RD_UNMAPPED, WR_UNMAPPED (spec/43_register_access.md R183). -/

namespace Sys2Proof.Machine

/-- ANY_MISALIGNED (R54, R82): ERR_ALIGN, whatever the size and the target. -/
def execAnyMisaligned (_t : Txn) (s : State) : Result := .next (raiseBusError .align s)

/-- ANY_BADSIZE (R55, R82): ERR_SIZE. -/
def execAnyBadsize (_t : Txn) (s : State) : Result := .next (raiseBusError .size s)

/-- RD_UNMAPPED (R183): ERR_ADDR. -/
def execRdUnmapped (_addr : BitVec 12) (s : State) : Result := .next (raiseBusError .addr s)

/-- WR_UNMAPPED (R183): ERR_ADDR. -/
def execWrUnmapped (_addr : BitVec 12) (_wdata : Word) (s : State) : Result := .next (raiseBusError .addr s)

end Sys2Proof.Machine
end

