-- ==== Sys2Proof/Machine/StatusReg.lean ====
section
/-! DEFINITION. The STATUS register: RD_STATUS, WR_STATUS (spec/43_register_access.md R175, R176). -/

namespace Sys2Proof.Machine

/-- RD_STATUS (R175): the STATUS word; reading clears nothing. -/
def execRdStatus (s : State) : Result := .next (respondOk (statusWord s) s)

/-- WR_STATUS (R176): bit 3 = 1 clears ERR and ERRCODE; every other bit is ignored. -/
def execWrStatus (wdata : Word) (s : State) : Result :=
  .next (respondOk 0 (if errClr wdata then clearError s else s))

end Sys2Proof.Machine
end

