-- ==== Sys2Proof/Machine/Windows.lean ====
section
/-! DEFINITION. The output windows: RD_EXPW, WR_EXPW, RD_RK, WR_RK, RD_DRK, WR_DRK (spec/43_register_access.md R177 to R182). -/

namespace Sys2Proof.Machine

/-- RD_EXPW (R177). -/
def execRdExpw (i : Fin 44) (s : State) : Result := .next (windowRead s.encValid (s.wReg i) s)

/-- WR_EXPW (R178): always ERR_ACCESS; W is unchanged. -/
def execWrExpw (_i : Fin 44) (_wdata : Word) (s : State) : Result := .next (raiseBusError .access s)

/-- RD_RK (R179): row r of `Repack(w)[k]`. -/
def execRdRk (k : Fin 11) (r : Fin 4) (s : State) : Result :=
  .next (windowRead s.encValid (pack32 (blockRow s.rk[k] r)) s)

/-- WR_RK (R180): always ERR_ACCESS. -/
def execWrRk (_k : Fin 11) (_r : Fin 4) (_wdata : Word) (s : State) : Result := .next (raiseBusError .access s)

/-- RD_DRK (R181): row r of `DecPass(Repack(w))[k]`. -/
def execRdDrk (k : Fin 11) (r : Fin 4) (s : State) : Result :=
  .next (windowRead s.decValid (pack32 (blockRow s.drk[k] r)) s)

/-- WR_DRK (R182): always ERR_ACCESS. -/
def execWrDrk (_k : Fin 11) (_r : Fin 4) (_wdata : Word) (s : State) : Result := .next (raiseBusError .access s)

end Sys2Proof.Machine
end

