-- ==== Sys2Proof/Machine/Dispatch.lean ====
section
/-! DEFINITION. The dispatch: one arm per instruction, each one direct call of its meaning. -/

namespace Sys2Proof.Machine

def exec (i : Instr) (s : State) : Host.Outcome State Fault Refusal :=
  match i with
  | .anyMisaligned t => Sys2Proof.Machine.execAnyMisaligned t s
  | .anyBadsize t => Sys2Proof.Machine.execAnyBadsize t s
  | .rdKey n => Sys2Proof.Machine.execRdKey n s
  | .wrKey n data => Sys2Proof.Machine.execWrKey n data s
  | .rdCmd => Sys2Proof.Machine.execRdCmd s
  | .expandEnc => Sys2Proof.Machine.execExpandEnc s
  | .expandDec => Sys2Proof.Machine.execExpandDec s
  | .cmdIllegal wdata => Sys2Proof.Machine.execCmdIllegal wdata s
  | .rdStatus => Sys2Proof.Machine.execRdStatus s
  | .wrStatus wdata => Sys2Proof.Machine.execWrStatus wdata s
  | .rdExpw n => Sys2Proof.Machine.execRdExpw n s
  | .wrExpw n wdata => Sys2Proof.Machine.execWrExpw n wdata s
  | .rdRk k r => Sys2Proof.Machine.execRdRk k r s
  | .wrRk k r wdata => Sys2Proof.Machine.execWrRk k r wdata s
  | .rdDrk k r => Sys2Proof.Machine.execRdDrk k r s
  | .wrDrk k r wdata => Sys2Proof.Machine.execWrDrk k r wdata s
  | .rdUnmapped addr => Sys2Proof.Machine.execRdUnmapped addr s
  | .wrUnmapped addr wdata => Sys2Proof.Machine.execWrUnmapped addr wdata s
  | .portRk k => Sys2Proof.Machine.execPortRk k s
  | .portDrk k => Sys2Proof.Machine.execPortDrk k s
  | .portBadidx sel idx => Sys2Proof.Machine.execPortBadidx sel idx s

end Sys2Proof.Machine
end

