-- ==== Sys2Proof/Machine/Engine.lean ====
section
/-! DEFINITION. The steps that are no instruction: the engine's (spec/42_commands.md R154, R155) and reset
(spec/70_reset_and_hazards.md R230, R232). -/

namespace Sys2Proof.Machine

/-- `Complete()` (R154). It touches neither ERR, ERRCODE, KEY, KEYMASK nor OP, and gives no response. -/
def complete (s : State) : State :=
  { s.silent with
    w := some (expandedRegisters (keyBytes s.key))
    encValid := true
    decValid := s.op == 2
    busy := false
    cnt := 0 }

/-- One clock cycle of the engine: CNT counts down while BUSY = 1 and the completion happens when it expires (R36, R155;
log 3). With BUSY = 0 the block is idle and keeps all its state (R217). -/
def engineTurn (s : State) : State :=
  if s.busy then if s.cnt ≤ 1 then complete s else { s.silent with cnt := s.cnt - 1 } else s.silent

/-- The reset event (R230, R232): every piece of the block's state takes its value of R39. What the outside world does next
and drives on the port is not the block's (log 2, 8, 12). -/
def resetEvent (s : State) : State := { State.reset with portReq := s.portReq, inbox := s.inbox }

end Sys2Proof.Machine
end

