-- ==== Sys2Proof/Machine/Step.lean ====
section
/-! DEFINITION. One step of the machine (spec/60_exceptions.md R209: in each step exactly one thing happens). -/

namespace Sys2Proof.Machine

/-- The next thing of the inbox happens: a record is decoded and run (R82), a clock cycle lets the engine count (R155), or
the block is reset (R230). With nothing left in the inbox the engine has the turn, so that an accepted command always
completes (R155 weak fairness; log 4) and an idle block stays as it is (R217). -/
def step (s : State) : Host.Outcome State Fault Refusal :=
  match s.inbox with
  | [] => .next (engineTurn s)
  | .clock :: q => .next (engineTurn (s.withInbox q))
  | .reset :: q => .next (resetEvent (s.withInbox q))
  | .record r :: q =>
    match decode r with
    | .ok i => exec i (s.withInbox q)
    | .error e => .refused (.notATransaction e)

/-- The record of the `nbits` table bits `w` put where `step` takes its next thing from (log 2, 15). -/
def State.withFetchWord (s : State) (nbits w : Nat) : State := s.pushRecord (tableRecord nbits w)

end Sys2Proof.Machine
end

