-- ==== Sys2Proof/Machine/Assembler.lean ====
section
/-! DEFINITION. The assembler's forms and the pseudo-instructions (spec/30_encoding.md R83, R84), as data (log 16, 17). -/

namespace Sys2Proof.Machine

/-- The SIZE code of `.b` (1 byte) and `.h` (2 bytes) (R78, R83). -/
def sizedCode (half : Bool) : BitVec 2 := if half then 1 else 0

/-- The record an assembler form spells (R83). -/
def asmRecord : Asm → Record
  | .rd t => .txn64 (Txn.read t.offset).toRecord
  | .wr t imm => .txn64 (Txn.write t.offset imm).toRecord
  | .rdSized half t => .txn64 { Txn.read t.offset with size := sizedCode half : Txn }.toRecord
  | .wrSized half t imm => .txn64 { Txn.write t.offset imm with size := sizedCode half : Txn }.toRecord
  | .rdAt off => .txn64 (Txn.read off).toRecord
  | .wrAt off imm => .txn64 (Txn.write off imm).toRecord
  | .portRk k => .port { sel := false, idx := k : PortRequest }.toByte
  | .portDrk k => .port { sel := true, idx := k : PortRequest }.toByte

/-- The expansion of a pseudo-instruction (R84). For `wait` it is one turn of the host's loop, one `rd STATUS`. -/
def pseudoForms : Pseudo → List Asm
  | .loadkey k => (List.finRange 4).map fun n => .wr (.key n) (keyRegisters k)[n]
  | .expandEnc => [.wr .cmd 0x00000001]
  | .expandDec => [.wr .cmd 0x00000002]
  | .clrerr => [.wr .status 0x00000008]
  | .wait => [.rd .status]
  | .check => [.rd .status]

/-- `wait`: "repeat while bit 0 of the result is 1" (R84). -/
def waitAgain (r : Response) : Bool := r.rdata.getLsbD 0

/-- `check`: "the program's claim is that bit 3 (ERR) is 0" (R84). -/
def checkHolds (r : Response) : Bool := !r.rdata.getLsbD 3

/-- A pseudo-instruction's records in the order the host presents them. -/
def pseudoStimuli (p : Pseudo) : List Stimulus := (pseudoForms p).map fun a => .record (asmRecord a)

/-- `n` turns of a `wait` loop, a clock cycle after each poll. -/
def waitStimuli : Nat → List Stimulus
  | 0 => []
  | n + 1 => pseudoStimuli .wait ++ .clock :: waitStimuli n

/-- The canonical host sequence up to its `check` (R235), with `n` polls in its `wait`. -/
def canonicalSequence (k : KeyBytes) (command : Pseudo) (n : Nat) : List Stimulus :=
  pseudoStimuli (.loadkey k) ++ pseudoStimuli command ++ waitStimuli n ++ pseudoStimuli .check

end Sys2Proof.Machine
end

