-- ==== Sys2Proof/Safety.lean ====
section
/-! DEFINITION. What a safe run is, and the properties of states that statements name. -/

namespace Sys2Proof.Machine

/-- Every record of the list spells a transaction or a port request (R71, R79). -/
def wellFormedInputs (q : List Stimulus) : Prop :=
  ∀ r, Stimulus.record r ∈ q → ∃ i, decode r = .ok i

/-- A safe run: `n` steps end in a next state, not in a fault or a refusal. -/
def SafeFor (n : Nat) (s : State) : Prop := ∃ t, Sys2Proof.core.run n s = .next t

/-- The invariant of R34: readable outputs are the expansion of the key held. -/
def OutputsMatchKey (s : State) : Prop := s.encValid = true → s.w = some (expandedRegisters (keyBytes s.key))

/-- The invariants of R35 on the status bits. -/
structure StatusConsistent (s : State) : Prop where
  dec_enc : s.decValid = true → s.encValid = true
  busy_clears : s.busy = true → s.encValid = false ∧ s.decValid = false
  enc_key : s.encValid = true → s.keymask = 0xF
  err_code : s.err = false ↔ s.errcode = 0

/-- The legal values and the meaning of OP, ERRCODE and CNT (R24, R28, R36, R155) and the contents of W (R31). -/
structure FieldsLegal (s : State) : Prop where
  op_legal : s.op ≠ 3
  errcode_legal : s.errcode ≤ 8
  busy_op : s.busy = true → s.op = 1 ∨ s.op = 2
  busy_key : s.busy = true → s.keymask = 0xF
  busy_cnt : s.busy = true → 1 ≤ s.cnt
  dec_op : s.decValid = true → s.op = 2
  w_unspecified : s.encValid = false → s.w = none

/-- The invariant of the model: every state a run reaches from reset meets it, and every step keeps it. -/
structure BlockInv (s : State) : Prop where
  outputs : OutputsMatchKey s
  status : StatusConsistent s
  fields : FieldsLegal s

/-- The first condition of R203, in its order, that holds of a transaction: what the transaction is rejected with. It reads
the transaction's own fields and never the decoder. -/
def rejection (t : Txn) (s : State) : Option ErrCode :=
  let a := t.addr.toNat
  let key := a < 0x010
  let cmd := a = 0x010
  let status := a = 0x014
  let expw := 0x100 ≤ a ∧ a ≤ 0x1AC
  let rk := 0x200 ≤ a ∧ a ≤ 0x2AC
  let drk := 0x300 ≤ a ∧ a ≤ 0x3AC
  if a % 4 ≠ 0 then some .align
  else if t.size ≠ 2 then some .size
  else if ¬(key ∨ cmd ∨ status ∨ expw ∨ rk ∨ drk) then some .addr
  else if (t.we = true ∧ (expw ∨ rk ∨ drk)) ∨ (t.we = false ∧ cmd) then some .access
  else if s.busy = true ∧ ((t.we = true ∧ (key ∨ cmd)) ∨ (t.we = false ∧ (expw ∨ rk ∨ drk))) then some .busy
  else if t.we = false ∧ (((expw ∨ rk) ∧ s.encValid = false) ∨ (drk ∧ s.decValid = false)) then some .notReady
  else if t.we = true ∧ cmd ∧ t.wdata ≠ 1 ∧ t.wdata ≠ 2 then some .cmd
  else if t.we = true ∧ cmd ∧ s.keymask ≠ 0xF then some .key
  else none

/-- The block's own state, without the model's record of the outside world and without the hidden CNT and the contents of W:
what R31 and R36 say no program observes is left out. -/
def State.observable (s : State) : State := { s with w := none, cnt := 0 }

end Sys2Proof.Machine
end

