-- ==== Sys2Proof/Certificates/Slice0/Obligations.lean ====
section
/-! DEFINITION. The statements for the provers. Each is one sentence or rule of spec/, or a whole-machine consequence of several;
OBLIGATIONS.json says which. A statement speaks of the response, the driven port request and the inbox where it needs the
outside world; those fields are the model's (log 2, 7, 8). -/

namespace Sys2Proof.Claims

open Sys2Proof.Machine

/-- The state after a rejection (R201, R202): the code is kept if ERR was 0, the response is ERRRESP = 1 with RDATA = 0, and
nothing else changes. The code is R204's number. -/
def rejectedWith (code : BitVec 4) (s : State) : State :=
  { s with err := true, errcode := if s.err then s.errcode else code, resp := some { err := true, rdata := 0 } }

/-- The state after an accepted transaction that changes nothing but the response (R187). -/
def acceptedWith (v : Word) (s : State) : State := { s with resp := some { err := false, rdata := v } }

/-- The TXN64 record of a 4-byte read (R71): WE = 0, SIZE = 2, WDATA = 0. -/
def readRecord (off : Nat) : Record := .txn64 (0x2000000000000000#64 ||| (BitVec.ofNat 64 off <<< 32))

/-- The TXN64 record of a 4-byte write (R71): WE = 1, SIZE = 2. -/
def writeRecord (off : Nat) (v : Word) : Record :=
  .txn64 (0xA000000000000000#64 ||| (BitVec.ofNat 64 off <<< 32) ||| v.setWidth 64)

/-- Byte r of word 4k + c of the words that W holds: row r, column c of round key k (R136). -/
def roundKeyByte (v : Vector Word 44) (k : Fin 11) (r c : Fin 4) : Byte :=
  (unpack32 (v[4 * k.val + c.val]'(by omega)))[r]

/-- Row r of round key k from the words that W holds (R52). -/
def roundKeyRow (v : Vector Word 44) (k : Fin 11) (r : Fin 4) : KeyWord := Vector.ofFn fun c => roundKeyByte v k r c

/-- Row r of decryption round key k: for k in 1..9 row r of the mixed words, else the row itself (R137, R138). -/
def decRoundKeyRow (v : Vector Word 44) (k : Fin 11) (r : Fin 4) : KeyWord :=
  if 1 ≤ k.val ∧ k.val ≤ 9 then Vector.ofFn fun c : Fin 4 => (invMixCol (unpack32 (v[4 * k.val + c.val]'(by omega))))[r]
  else roundKeyRow v k r

/-- The forward column mix, matrix `[[2,3,1,1],[1,2,3,1],[1,1,2,3],[3,1,1,2]]` (R110). -/
def mixCol (a : KeyWord) : KeyWord :=
  #v[gmul 2 a[0] ^^^ gmul 3 a[1] ^^^ a[2] ^^^ a[3], a[0] ^^^ gmul 2 a[1] ^^^ gmul 3 a[2] ^^^ a[3],
     a[0] ^^^ a[1] ^^^ gmul 2 a[2] ^^^ gmul 3 a[3], gmul 3 a[0] ^^^ a[1] ^^^ a[2] ^^^ gmul 2 a[3]]

/-- Carry-less product of two polynomials over GF(2), the second of degree below 8 (R100). -/
def polyMul (a b : BitVec 16) : BitVec 16 :=
  (List.range 8).foldl (fun p i => if b.getLsbD i then p ^^^ (a <<< i) else p) 0

/-- Blockwise XOR. -/
def xorBlock (x y : Block) : Block := Vector.ofFn fun n => x[n] ^^^ y[n]

/-- The key of the known-answer test, `2b7e151628aed2a6abf7158809cf4f3c` (KAT-1). -/
def katKey : KeyBytes :=
  #v[0x2b, 0x7e, 0x15, 0x16, 0x28, 0xae, 0xd2, 0xa6, 0xab, 0xf7, 0x15, 0x88, 0x09, 0xcf, 0x4f, 0x3c]

end Sys2Proof.Claims

open Sys2Proof Sys2Proof.Machine Sys2Proof.Claims

/-! ### Encoding -/

/-- Decoding the encoding of a well-formed instruction gives it back, every operand at every value. -/
def Obligations.DecodeEncodeRoundTrip : Prop :=
  ∀ i : Instr, WellFormed i → decode (encode i) = .ok i

/-- Every record that decodes is the encoding of what it decodes to, which is well-formed: no record has two readings and no
bit of a record is ignored. For a port byte this rests on the refusal of bits 7:5, the model's choice (log 1): R79 gives a
request 5 bits and no byte. -/
def Obligations.EncodeDecodeRoundTrip : Prop :=
  ∀ (r : Record) (i : Instr), decode r = .ok i → WellFormed i ∧ encode i = r

/-- R82: the decode and the first matching row of the opcode table agree on every TXN64 record, refused ones too, and on every
5-bit port value. -/
def Obligations.DecoderAgreesWithOpcodeTable : Prop :=
  (∀ r : BitVec 64,
    tableMnemonic r = match decode (.txn64 r) with | .ok i => some i.mnemonic | .error _ => none) ∧
  (∀ q : BitVec 8, q.toNat < 32 →
    portTableMnemonic q = match decode (.port q) with | .ok i => some i.mnemonic | .error _ => none)

/-- R71: where each field of a transaction stands in its record, the two examples, and which records spell no transaction. That
the step refuses what the decoder refuses is the model's (log 13, and log 1 for a port byte): R71 calls it a property of the
notation. -/
def Obligations.TxnRecordLayoutAndRefusal : Prop :=
  (∀ (t : Txn) (j : Nat), j < 64 → t.toRecord.getLsbD j =
    if j = 63 then t.we else if j = 62 then false else if 60 ≤ j then t.size.getLsbD (j - 60)
    else if 44 ≤ j then false else if 32 ≤ j then t.addr.getLsbD (j - 32) else t.wdata.getLsbD j) ∧
  (∀ t : Txn, t.we = true ∨ t.wdata = 0 → Txn.ofRecord t.toRecord = .ok t) ∧
  encode (.wrKey 0 0x2b7e1516) = .txn64 0xA00000002B7E1516 ∧
  encode .rdStatus = .txn64 0x2000001400000000 ∧
  (∀ r : BitVec 64, (∃ e, decode (.txn64 r) = .error e) ↔
    (r.getLsbD 62 = true ∨ (∃ j, 44 ≤ j ∧ j < 60 ∧ r.getLsbD j = true) ∨
      (r.getLsbD 63 = false ∧ ∃ j, j < 32 ∧ r.getLsbD j = true))) ∧
  (∀ (s : State) (r : Record) (q : List Stimulus) (e : DecodeError), s.inbox = .record r :: q → decode r = .error e →
    step s = .refused (.notATransaction e))

/-- R53 (and the offsets of R52): the map names each register at one offset; an offset is mapped if and only if it is one of
those; every other aligned offset is rejected with ERR_ADDR. -/
def Obligations.MappedOffsets : Prop :=
  (∀ n : Fin 4, (Target.key n).offset.toNat = 4 * n.val) ∧
  Target.cmd.offset = 0x010 ∧ Target.status.offset = 0x014 ∧
  (∀ i : Fin 44, (Target.expw i).offset.toNat = 0x100 + 4 * i.val) ∧
  (∀ (k : Fin 11) (r : Fin 4), (Target.rk k r).offset.toNat = 0x200 + 16 * k.val + 4 * r.val) ∧
  (∀ (k : Fin 11) (r : Fin 4), (Target.drk k r).offset.toNat = 0x300 + 16 * k.val + 4 * r.val) ∧
  (∀ t : Target, regAt t.offset = some t) ∧
  (∀ (a : BitVec 12) (t : Target), regAt a = some t → t.offset = a) ∧
  (∀ (t : Txn) (s : State), t.addr.toNat % 4 = 0 → t.size = 2 → regAt t.addr = none →
    exec (decodeTxn t) s = .next (rejectedWith 3 s))

/-- R79: a port request is `rk_sel ++ rk_idx`; 0..10 name round keys, 11..15 name nothing and are answered with rk_valid = 0. -/
def Obligations.PortRequestEncoding : Prop :=
  ∀ (sel : Bool) (idx : BitVec 4),
    (∀ h : idx.toNat ≤ 10, decode (.port (0#3 ++ BitVec.ofBool sel ++ idx)) =
      .ok (if sel then .portDrk ⟨idx.toNat, by omega⟩ else .portRk ⟨idx.toNat, by omega⟩)) ∧
    (11 ≤ idx.toNat → decode (.port (0#3 ++ BitVec.ofBool sel ++ idx)) = .ok (.portBadidx sel idx) ∧
      ∀ s : State, ∃ t, exec (.portBadidx sel idx) s = .next t ∧ t.rkValid = false)

/-- Words of spec/95_test_vectors.md section 2.7 and 2.8, one or more of each family, decode to what they stand for. -/
def Obligations.SpecWordsDecode : Prop :=
  decode (.txn64 0x2000000800000000) = .ok (.rdKey 2) ∧
  decode (.txn64 0xA000000428AED2A6) = .ok (.wrKey 1 0x28AED2A6) ∧
  decode (.txn64 0xA000001000000002) = .ok .expandDec ∧
  decode (.txn64 0xA000001000000011) = .ok (.cmdIllegal 0x11) ∧
  decode (.txn64 0xA000001400000008) = .ok (.wrStatus 8) ∧
  decode (.txn64 0x200001AC00000000) = .ok (.rdExpw 43) ∧
  decode (.txn64 0x2000021C00000000) = .ok (.rdRk 1 3) ∧
  decode (.txn64 0xA00003AC00000000) = .ok (.wrDrk 10 3 0) ∧
  decode (.txn64 0x200001B000000000) = .ok (.rdUnmapped 0x1B0) ∧
  decode (.txn64 0x8000010100000000) = .ok (.anyMisaligned { we := true, size := 0, addr := 0x101, wdata := 0 }) ∧
  decode (.txn64 0x3000001800000000) = .ok (.anyBadsize { we := false, size := 3, addr := 0x018, wdata := 0 }) ∧
  decode (.port 0x1A) = .ok (.portDrk 10) ∧
  decode (.port 0x0B) = .ok (.portBadidx false 11)

/-! ### The transforms -/

/-- R102: xtime as arithmetic on the byte's value, and its corner cases. -/
def Obligations.XtimeRule : Prop :=
  (∀ a : Byte, (a.getLsbD 7 = true → (xtime a).toNat = ((2 * a.toNat) % 256) ^^^ 0x1b) ∧
    (a.getLsbD 7 = false → (xtime a).toNat = 2 * a.toNat)) ∧
  xtime 0x80 = 0x1b ∧ xtime 0xff = 0xe5 ∧ xtime 0x7f = 0xfe ∧ xtime 0x00 = 0x00

/-- R100, R101: gmul is the product of polynomials over GF(2) modulo 0x11b. -/
def Obligations.GmulIsPolynomialProduct : Prop :=
  ∀ a b : Byte, ∃ q : BitVec 16, q.toNat < 128 ∧
    polyMul (a.setWidth 16) (b.setWidth 16) = (gmul a b).setWidth 16 ^^^ polyMul 0x11b q

/-- R103: the laws of gmul, for every byte. -/
def Obligations.GmulLaws : Prop :=
  (∀ x, gmul x 1 = x ∧ gmul 1 x = x ∧ gmul x 0 = 0 ∧ gmul 0 x = 0) ∧
  (∀ a b, gmul a b = gmul b a) ∧
  (∀ a b c, gmul a (gmul b c) = gmul (gmul a b) c) ∧
  (∀ a b c, gmul a (b ^^^ c) = gmul a b ^^^ gmul a c)

/-- R105: the table of R104 equals the construction on all 256 entries. -/
def Obligations.SboxTableIsConstruction : Prop :=
  (∀ x : Byte, sbox x = sboxAffine (gfInv x)) ∧ gfInv 0 = 0 ∧ (∀ x : Byte, x ≠ 0 → gmul x (gfInv x) = 1) ∧
  (∀ b : Byte, sboxAffine b = b ^^^ (b <<< 1 ||| b >>> 7) ^^^ (b <<< 2 ||| b >>> 6) ^^^ (b <<< 3 ||| b >>> 5) ^^^
    (b <<< 4 ||| b >>> 4) ^^^ 0x63) ∧
  gfInv 0x53 = 0xca ∧ sboxAffine 0xca = 0xed

/-- R107, R108, R109: RotWord, SubWord and T by bytes and in packed form; only byte 0 of T takes the round constant. R106, which
the spec derives: the ten round constants that T reads are the powers of 2, rcon(1) = 1. -/
def Obligations.WordTransforms : Prop :=
  rcon 1 = 0x01 ∧ (∀ j : Nat, 1 ≤ j → j ≤ 9 → rcon (j + 1) = xtime (rcon j)) ∧
  (∀ a : KeyWord, rotWord a = #v[a[1], a[2], a[3], a[0]] ∧ pack32 (rotWord a) = (pack32 a).rotateLeft 8 ∧
    subWord a = #v[sbox a[0], sbox a[1], sbox a[2], sbox a[3]]) ∧
  (∀ (a : KeyWord) (i : Nat), i % 4 = 0 → 4 ≤ i → i ≤ 40 →
    (transformT a i)[0] = sbox a[1] ^^^ rcon (i / 4) ∧ (transformT a i)[1] = sbox a[2] ∧
    (transformT a i)[2] = sbox a[3] ∧ (transformT a i)[3] = sbox a[0] ∧
    pack32 (transformT a i) = pack32 (subWord (rotWord a)) ^^^ ((rcon (i / 4)).setWidth 32 <<< 24)) ∧
  pack32 (rotWord (unpack32 0x09cf4f3c)) = 0xcf4f3c09 ∧ pack32 (subWord (unpack32 0xcf4f3c09)) = 0x8a84eb01 ∧
  pack32 (transformT (unpack32 0x09cf4f3c) 4) = 0x8b84eb01

/-- R110: the corner cases of InvMixCol, and that it is the inverse of the forward matrix in the same orientation. -/
def Obligations.InvMixColInvertsMixCol : Prop :=
  (∀ a : KeyWord, invMixCol (mixCol a) = a ∧ mixCol (invMixCol a) = a) ∧
  (∀ b : Byte, invMixCol #v[b, b, b, b] = #v[b, b, b, b]) ∧
  invMixCol #v[1, 0, 0, 0] = #v[0x0e, 0x09, 0x0d, 0x0b] ∧
  invMixCol #v[0x8e, 0x4d, 0xa1, 0xbc] = #v[0xdb, 0x13, 0x53, 0x45]

/-- R111: InvMixColumns column by column, independent columns, linear over XOR. -/
def Obligations.InvMixColumnsByColumn : Prop :=
  (∀ (x : Block) (r c : Fin 4), (invMixColumns x)[4 * r.val + c.val] =
    (invMixCol #v[x[c.val], x[4 + c.val], x[8 + c.val], x[12 + c.val]])[r]) ∧
  (∀ (x y : Block) (c : Fin 4), (∀ r : Fin 4, x[4 * r.val + c.val] = y[4 * r.val + c.val]) →
    ∀ r : Fin 4, (invMixColumns x)[4 * r.val + c.val] = (invMixColumns y)[4 * r.val + c.val]) ∧
  (∀ x y : Block, invMixColumns (xorBlock x y) = xorBlock (invMixColumns x) (invMixColumns y)) ∧
  invMixColumns (Vector.replicate 16 1) = Vector.replicate 16 1

/-- R10, R66: where each byte stands in a packed word and in a packed block; packing and unpacking undo each other; the key
registers hold the key (R21). -/
def Obligations.PackingOrder : Prop :=
  (∀ (a : KeyWord) (j : Fin 4), (pack32 a).extractLsb' (24 - 8 * j.val) 8 = a[j]) ∧
  (∀ (x : Block) (n : Fin 16), (pack128 x).extractLsb' (120 - 8 * n.val) 8 = x[n]) ∧
  (∀ v : Word, pack32 (unpack32 v) = v) ∧
  (∀ a : KeyWord, unpack32 (pack32 a) = a) ∧
  (∀ k : KeyBytes, keyBytes (keyRegisters k) = k) ∧
  (∀ key : Vector Word 4, keyRegisters (keyBytes key) = key)

/-! ### The expansion -/

/-- R130, R131: the first four words are the key, also in register form; every later word is the recurrence. -/
def Obligations.ExpansionRecurrence : Prop :=
  (∀ (k : KeyBytes) (i j : Fin 4), (expand k)[i.val][j] = k[4 * i.val + j.val]) ∧
  (∀ (key : Vector Word 4) (i : Fin 4), (expandedRegisters (keyBytes key))[i.val] = key[i]) ∧
  (∀ (k : KeyBytes) (i : Nat) (h : i < 44), 4 ≤ i →
    (i % 4 = 0 → (expand k)[i] = xorWord (expand k)[i - 4] (transformT (expand k)[i - 1] i)) ∧
    (i % 4 ≠ 0 → (expand k)[i] = xorWord (expand k)[i - 4] (expand k)[i - 1])) ∧
  (∀ (a b : KeyWord) (j : Fin 4), (xorWord a b)[j] = a[j] ^^^ b[j])

/-- R134, R135: the 176-byte sequence and the repack, which is word 4k+i, byte j. -/
def Obligations.RepackTransposes : Prop :=
  ∀ w : Vector KeyWord 44,
    (∀ (i : Fin 44) (j : Fin 4), (expandedBytes w)[4 * i.val + j.val] = w[i][j]) ∧
    (∀ (k : Fin 11) (i j : Fin 4),
      (repack w)[k][4 * j.val + i.val] = (expandedBytes w)[16 * k.val + 4 * i.val + j.val] ∧
      (repack w)[k][4 * j.val + i.val] = w[4 * k.val + i.val][j])

/-- R137: DecPass mixes round keys 1..9 and passes 0 and 10 through. -/
def Obligations.DecPassMixesMiddleRounds : Prop :=
  ∀ x : Vector Block 11,
    (decPass x)[0] = x[0] ∧ (decPass x)[10] = x[10] ∧
    ∀ k : Fin 11, 1 ≤ k.val → k.val ≤ 9 → (decPass x)[k] = invMixColumns x[k]

/-! ### Key registers -/

/-- R171: RD_KEY responds KEY[n] in every state, also while BUSY = 1; before any write it reads 0; after an accepted write it
reads what was written. -/
def Obligations.RdKeyRespondsKey : Prop :=
  ∀ (n : Fin 4) (s : State),
    decode (readRecord (4 * n.val)) = .ok (.rdKey n) ∧
    exec (.rdKey n) s = .next (acceptedWith s.key[n] s) ∧
    exec (.rdKey n) State.reset = .next (acceptedWith 0 State.reset) ∧
    ∀ v, s.busy = false → ∃ t, exec (.wrKey n v) s = .next t ∧ exec (.rdKey n) t = .next (acceptedWith v t)

/-- R172: WR_KEY stores the word, sets KEYMASK[n], clears both valid bits, and changes nothing else; while BUSY = 1 it is
rejected with code 5. (The contents of W are unspecified once ENC_VALID is cleared, R31, so the frame leaves W out.) -/
def Obligations.WrKeyStoresAndInvalidates : Prop :=
  (∀ (n : Fin 4) (v : Word) (s : State),
    decode (writeRecord (4 * n.val) v) = .ok (.wrKey n v) ∧
    (s.busy = true → exec (.wrKey n v) s = .next (rejectedWith 5 s)) ∧
    (s.busy = false → ∃ t, exec (.wrKey n v) s = .next t ∧
      t.key[n] = v ∧ (∀ m : Fin 4, m ≠ n → t.key[m] = s.key[m]) ∧
      (∀ b : Fin 4, t.keymask.getLsbD b.val = (s.keymask.getLsbD b.val || b == n)) ∧
      t.encValid = false ∧ t.decValid = false ∧ t.resp = some { err := false, rdata := 0 } ∧
      { t with key := s.key, keymask := s.keymask, encValid := s.encValid, decValid := s.decValid, w := s.w, resp := s.resp } = s)) ∧
  ∃ t, exec (.wrKey 2 0xabf71588) State.reset = .next t ∧ t.keymask = 0b0100 ∧
    exec .rdStatus t = .next (acceptedWith 0x00000040 t)

/-! ### Commands -/

/-- R150: the CMD write, its checks in order, and the accepted command; a rejected command changes nothing but the error
record. (W is left out of the frame, R31.) -/
def Obligations.CmdWriteChecksInOrder : Prop :=
  ∀ (v : Word) (s : State),
    (s.busy = true → exec (decodeCmd v) s = .next (rejectedWith 5 s)) ∧
    (s.busy = false → v ≠ 1 → v ≠ 2 → exec (decodeCmd v) s = .next (rejectedWith 7 s)) ∧
    (s.busy = false → v = 1 ∨ v = 2 → s.keymask ≠ 0xF → exec (decodeCmd v) s = .next (rejectedWith 8 s)) ∧
    (s.busy = false → v = 1 ∨ v = 2 → s.keymask = 0xF → ∃ t, exec (decodeCmd v) s = .next t ∧
      t.op = v.extractLsb' 0 2 ∧ t.busy = true ∧ t.encValid = false ∧ t.decValid = false ∧
      t.cnt = (if t.op = 1 then Config.latEnc else Config.latDec) ∧ t.resp = some { err := false, rdata := 0 } ∧
      { t with op := s.op, busy := s.busy, encValid := s.encValid, decValid := s.decValid, w := s.w, cnt := s.cnt, resp := s.resp } = s)

/-- EXPAND_ENC accepted (R150, R151): OP = 1, BUSY = 1, both valid bits 0; when CNT has expired its completion gives
`W <- Expand(K)`, ENC_VALID = 1, DEC_VALID = 0, BUSY = 0. -/
def Obligations.ExpandEncStartsAndCompletes : Prop :=
  (decode (writeRecord 0x010 1) = .ok .expandEnc) ∧
  ∀ s : State, s.busy = false → s.keymask = 0xF → ∃ t, exec .expandEnc s = .next t ∧
    t.op = 1 ∧ t.busy = true ∧ t.encValid = false ∧ t.decValid = false ∧ t.cnt = Config.latEnc ∧ 1 ≤ t.cnt ∧
    t.resp = some { err := false, rdata := 0 } ∧
    { t with op := s.op, busy := s.busy, encValid := s.encValid, decValid := s.decValid, w := s.w, cnt := s.cnt, resp := s.resp } = s ∧
    ∀ u, engineTurn { t with cnt := 1 } = u → u.w = some (expandedRegisters (keyBytes s.key)) ∧
      u.encValid = true ∧ u.decValid = false ∧ u.busy = false

/-- EXPAND_DEC accepted (R150, R152): OP = 2, BUSY = 1, both valid bits 0; its completion makes both valid. -/
def Obligations.ExpandDecStartsAndCompletes : Prop :=
  (decode (writeRecord 0x010 2) = .ok .expandDec) ∧
  ∀ s : State, s.busy = false → s.keymask = 0xF → ∃ t, exec .expandDec s = .next t ∧
    t.op = 2 ∧ t.busy = true ∧ t.encValid = false ∧ t.decValid = false ∧ t.cnt = Config.latDec ∧ 1 ≤ t.cnt ∧
    t.resp = some { err := false, rdata := 0 } ∧
    { t with op := s.op, busy := s.busy, encValid := s.encValid, decValid := s.decValid, w := s.w, cnt := s.cnt, resp := s.resp } = s ∧
    ∀ u, engineTurn { t with cnt := 1 } = u → u.w = some (expandedRegisters (keyBytes s.key)) ∧
      u.encValid = true ∧ u.decValid = true ∧ u.busy = false

/-- R153, R74: every CMD value but 1 and 2 is illegal: ERR_CMD, or ERR_BUSY when BUSY = 1. -/
def Obligations.CmdIllegalRejected : Prop :=
  ∀ (v : Word) (s : State), v ≠ 1 → v ≠ 2 →
    decode (writeRecord 0x010 v) = .ok (.cmdIllegal v) ∧
    (s.busy = false → exec (.cmdIllegal v) s = .next (rejectedWith 7 s)) ∧
    (s.busy = true → exec (.cmdIllegal v) s = .next (rejectedWith 5 s))

/-- R173: a read of CMD is always rejected with ERR_ACCESS. -/
def Obligations.RdCmdRejected : Prop :=
  decode (readRecord 0x010) = .ok .rdCmd ∧ ∀ s : State, exec .rdCmd s = .next (rejectedWith 4 s)

/-! ### STATUS -/

/-- R175: RD_STATUS responds the fields at their bits, in every state, and changes nothing. -/
def Obligations.RdStatusRespondsFields : Prop :=
  decode (readRecord 0x014) = .ok .rdStatus ∧
  ∀ s : State, ∃ v, exec .rdStatus s = .next (acceptedWith v s) ∧
    v.getLsbD 0 = s.busy ∧ v.getLsbD 1 = s.encValid ∧ v.getLsbD 2 = s.decValid ∧ v.getLsbD 3 = s.err ∧
    v.extractLsb' 4 4 = s.keymask ∧ v.extractLsb' 8 4 = s.errcode ∧ v.extractLsb' 12 2 = s.op ∧ v.extractLsb' 14 18 = 0

/-- R176, R75: a STATUS write with bit 3 = 1 clears ERR and ERRCODE, any other changes nothing; it is accepted in every
state; one that the decode rejects does not clear. -/
def Obligations.WrStatusClearsError : Prop :=
  ∀ (v : Word) (s : State),
    decode (writeRecord 0x014 v) = .ok (.wrStatus v) ∧
    (v.getLsbD 3 = true → exec (.wrStatus v) s = .next (acceptedWith 0 { s with err := false, errcode := 0 })) ∧
    (v.getLsbD 3 = false → exec (.wrStatus v) s = .next (acceptedWith 0 s)) ∧
    (∀ z : BitVec 2, z ≠ 2 → exec (decodeTxn { we := true, size := z, addr := 0x014, wdata := v }) s = .next (rejectedWith 2 s)) ∧
    (∀ (z : BitVec 2) (b : BitVec 12), b = 0x015 ∨ b = 0x016 ∨ b = 0x017 →
      exec (decodeTxn { we := true, size := z, addr := b, wdata := v }) s = .next (rejectedWith 1 s))

/-! ### Output windows -/

/-- R177: RD_EXPW. The first four words read as the key; the offsets after the window are unmapped. -/
def Obligations.RdExpwRespondsWord : Prop :=
  (∀ (i : Fin 44) (s : State),
    decode (readRecord (0x100 + 4 * i.val)) = .ok (.rdExpw i) ∧
    (s.busy = true → exec (.rdExpw i) s = .next (rejectedWith 5 s)) ∧
    (s.busy = false → s.encValid = false → exec (.rdExpw i) s = .next (rejectedWith 6 s)) ∧
    (∀ v, s.busy = false → s.encValid = true → s.w = some v → exec (.rdExpw i) s = .next (acceptedWith v[i] s))) ∧
  (∀ (n : Fin 4) (s : State), OutputsMatchKey s → s.busy = false → s.encValid = true →
    exec (.rdExpw ⟨n.val, by omega⟩) s = .next (acceptedWith s.key[n] s)) ∧
  (∀ a : BitVec 12, 0x1B0 ≤ a.toNat → a.toNat ≤ 0x1FC → regAt a = none)

/-- R179: RD_RK responds row r of round key k, byte r of the four words 4k..4k+3. -/
def Obligations.RdRkRespondsRow : Prop :=
  (∀ (k : Fin 11) (r : Fin 4) (s : State),
    decode (readRecord (0x200 + 16 * k.val + 4 * r.val)) = .ok (.rdRk k r) ∧
    (s.busy = true → exec (.rdRk k r) s = .next (rejectedWith 5 s)) ∧
    (s.busy = false → s.encValid = false → exec (.rdRk k r) s = .next (rejectedWith 6 s)) ∧
    (∀ v, s.busy = false → s.encValid = true → s.w = some v →
      exec (.rdRk k r) s = .next (acceptedWith (pack32 (roundKeyRow v k r)) s))) ∧
  (∀ a : BitVec 12, 0x2B0 ≤ a.toNat → a.toNat ≤ 0x2FC → regAt a = none)

/-- R181: RD_DRK responds row r of decryption round key k; DRK[0] and DRK[10] read the same as RK[0] and RK[10]. -/
def Obligations.RdDrkRespondsRow : Prop :=
  (∀ (k : Fin 11) (r : Fin 4) (s : State),
    decode (readRecord (0x300 + 16 * k.val + 4 * r.val)) = .ok (.rdDrk k r) ∧
    (s.busy = true → exec (.rdDrk k r) s = .next (rejectedWith 5 s)) ∧
    (s.busy = false → s.decValid = false → exec (.rdDrk k r) s = .next (rejectedWith 6 s)) ∧
    (∀ v, s.busy = false → s.decValid = true → s.w = some v →
      exec (.rdDrk k r) s = .next (acceptedWith (pack32 (decRoundKeyRow v k r)) s) ∧
      (k.val = 0 ∨ k.val = 10 → s.encValid = true → exec (.rdDrk k r) s = exec (.rdRk k r) s))) ∧
  (∀ a : BitVec 12, 0x3B0 ≤ a.toNat → a.toNat ≤ 0x3FC → regAt a = none)

/-- R178, R180, R182: a write to an output window is always rejected with ERR_ACCESS and changes nothing else, W included. -/
def Obligations.WindowWritesRejected : Prop :=
  ∀ (i : Fin 44) (k : Fin 11) (r : Fin 4) (v : Word) (s : State),
    decode (writeRecord (0x100 + 4 * i.val) v) = .ok (.wrExpw i v) ∧
    decode (writeRecord (0x200 + 16 * k.val + 4 * r.val) v) = .ok (.wrRk k r v) ∧
    decode (writeRecord (0x300 + 16 * k.val + 4 * r.val) v) = .ok (.wrDrk k r v) ∧
    exec (.wrExpw i v) s = .next (rejectedWith 4 s) ∧
    exec (.wrRk k r v) s = .next (rejectedWith 4 s) ∧
    exec (.wrDrk k r v) s = .next (rejectedWith 4 s)

/-! ### Rejected by the decode -/

/-- R54, R55: a misaligned transaction is rejected with ERR_ALIGN whatever its size and target, an aligned one that is not 4
bytes wide with ERR_SIZE. -/
def Obligations.MisalignedAndBadSizeRejected : Prop :=
  ∀ (t : Txn) (s : State),
    (t.addr.toNat % 4 ≠ 0 → decodeTxn t = .anyMisaligned t) ∧
    exec (.anyMisaligned t) s = .next (rejectedWith 1 s) ∧
    (t.addr.toNat % 4 = 0 → t.size ≠ 2 → decodeTxn t = .anyBadsize t) ∧
    exec (.anyBadsize t) s = .next (rejectedWith 2 s)

/-- R183: an aligned 4-byte transaction to an unmapped offset is rejected with ERR_ADDR; neither BUSY nor the valid bits
matter. -/
def Obligations.UnmappedRejected : Prop :=
  ∀ (a : BitVec 12) (v : Word) (s : State),
    exec (.rdUnmapped a) s = .next (rejectedWith 3 s) ∧ exec (.wrUnmapped a v) s = .next (rejectedWith 3 s) ∧
    (a.toNat % 4 = 0 → (0x018 ≤ a.toNat ∧ a.toNat ≤ 0x0FC) ∨ (0x1B0 ≤ a.toNat ∧ a.toNat ≤ 0x1FC) ∨
        (0x2B0 ≤ a.toNat ∧ a.toNat ≤ 0x2FC) ∨ (0x3B0 ≤ a.toNat ∧ a.toNat ≤ 0xFFC) →
      decode (readRecord a.toNat) = .ok (.rdUnmapped a) ∧ decode (writeRecord a.toNat v) = .ok (.wrUnmapped a v))

/-! ### The round-key port -/

/-- R184: PORT_RK. The outputs follow the state whatever request is driven; the request changes nothing of the block. -/
def Obligations.PortRkOutputs : Prop :=
  ∀ (k : Fin 11) (s : State),
    decode (.port (BitVec.ofNat 8 k.val)) = .ok (.portRk k) ∧
    (∃ t, exec (.portRk k) s = .next t ∧ t.portReq = { sel := false, idx := BitVec.ofNat 4 k.val } ∧
      { t with portReq := s.portReq, resp := s.resp } = s ∧
      t.rkValid = (!s.busy && s.encValid) ∧
      (t.rkValid = false → t.rkData = 0) ∧
      (∀ v, t.rkValid = true → s.w = some v → ∀ r c : Fin 4,
        t.rkData.extractLsb' (120 - 8 * (4 * r.val + c.val)) 8 = roundKeyByte v k r c)) ∧
    (s.portReq = { sel := false, idx := BitVec.ofNat 4 k.val } → s.rkValid = (!s.busy && s.encValid) ∧
      (s.rkValid = false → s.rkData = 0) ∧
      (∀ v, s.rkValid = true → s.w = some v → ∀ r c : Fin 4,
        s.rkData.extractLsb' (120 - 8 * (4 * r.val + c.val)) 8 = roundKeyByte v k r c))

/-- R185: PORT_DRK. -/
def Obligations.PortDrkOutputs : Prop :=
  (∀ (k : Fin 11) (s : State),
    decode (.port (BitVec.ofNat 8 (16 + k.val))) = .ok (.portDrk k) ∧
    (∃ t, exec (.portDrk k) s = .next t ∧ t.portReq = { sel := true, idx := BitVec.ofNat 4 k.val } ∧
      { t with portReq := s.portReq, resp := s.resp } = s ∧
      t.rkValid = (!s.busy && s.decValid) ∧
      (t.rkValid = false → t.rkData = 0) ∧
      (∀ v, t.rkValid = true → s.w = some v → ∀ r c : Fin 4,
        t.rkData.extractLsb' (120 - 8 * (4 * r.val + c.val)) 8 = (decRoundKeyRow v k r)[c])) ∧
    (s.portReq = { sel := true, idx := BitVec.ofNat 4 k.val } → s.rkValid = (!s.busy && s.decValid) ∧
      (s.rkValid = false → s.rkData = 0) ∧
      (∀ v, s.rkValid = true → s.w = some v → ∀ r c : Fin 4,
        s.rkData.extractLsb' (120 - 8 * (4 * r.val + c.val)) 8 = (decRoundKeyRow v k r)[c]))) ∧
  ∀ (s t : State) (p : PortRequest), s.busy = false → s.keymask = 0xF → exec .expandEnc s = .next t → p.sel = true →
    portValid (complete t) p = false ∧ portData (complete t) p = 0

/-- R186: PORT_BADIDX gives rk_valid = 0 and rk_data = 0 and records nothing. -/
def Obligations.PortBadIndexOutputs : Prop :=
  ∀ (sel : Bool) (idx : BitVec 4) (s : State), 11 ≤ idx.toNat →
    ∃ t, exec (.portBadidx sel idx) s = .next t ∧ t.portReq = { sel := sel, idx := idx } ∧
      t.rkValid = false ∧ t.rkData = 0 ∧ { t with portReq := s.portReq, resp := s.resp } = s

/-- R243: for every request, rk_valid is 0 in the state after an accepted KEY write, after an accepted command and after reset,
and a step that raises it is the engine's completion. -/
def Obligations.PortValidFallsAtOnce : Prop :=
  (∀ (p : PortRequest) (n : Fin 4) (v : Word) (s : State), s.busy = false →
    ∃ t, exec (.wrKey n v) s = .next t ∧ portValid t p = false ∧ portData t p = 0) ∧
  (∀ (p : PortRequest) (s : State), s.busy = false → s.keymask = 0xF →
    (∃ t, exec .expandEnc s = .next t ∧ portValid t p = false ∧ portData t p = 0) ∧
    ∃ t, exec .expandDec s = .next t ∧ portValid t p = false ∧ portData t p = 0) ∧
  (∀ (p : PortRequest) (s : State) (q : List Stimulus), s.inbox = .reset :: q →
    ∃ t, step s = .next t ∧ portValid t p = false ∧ portData t p = 0) ∧
  (∀ (p : PortRequest) (s t : State), step s = .next t → portValid s p = false → portValid t p = true →
    s.busy = true ∧ s.cnt ≤ 1 ∧ (s.inbox = [] ∨ ∃ q, s.inbox = .clock :: q))

/-! ### Rejection, responses and the error record -/

/-- R203: every transaction is rejected with the first condition of the priority table that holds, and only with that one;
when none holds it is accepted, and the error record is cleared if the transaction is a STATUS write with bit 3 = 1 and
unchanged if not. -/
def Obligations.RejectionPriority : Prop :=
  ∀ (t : Txn) (s : State),
    match rejection t s with
    | some c => exec (decodeTxn t) s = .next (rejectedWith (errorCode c) s)
    | none => ∃ u v, exec (decodeTxn t) s = .next u ∧ u.resp = some { err := false, rdata := v } ∧
        (if t.we = true ∧ t.addr = 0x014 ∧ t.wdata.getLsbD 3 = true then u.err = false ∧ u.errcode = 0
          else u.err = s.err ∧ u.errcode = s.errcode)

/-- R201, R202: a transaction whose response is an error has RDATA = 0 and changed nothing but the error record, which keeps the
first code. -/
def Obligations.RejectionChangesOnlyErrorRecord : Prop :=
  ∀ (i : Instr) (s t : State) (v : Word), exec i s = .next t → t.resp = some { err := true, rdata := v } → i.isTransaction = true →
    v = 0 ∧ t.err = true ∧ (s.err = true → t.errcode = s.errcode) ∧
    (s.err = false → 1 ≤ t.errcode ∧ t.errcode ≤ 8) ∧
    { t with err := s.err, errcode := s.errcode, resp := s.resp } = s

/-- R187: every transaction gets one response; an accepted write and every rejection have RDATA = 0. A port request and the
engine give none. -/
def Obligations.EveryTransactionResponds : Prop :=
  (∀ (i : Instr) (s : State), i.isTransaction = true → ∃ t r, exec i s = .next t ∧ t.resp = some r ∧ (r.err = true → r.rdata = 0)) ∧
  (∀ (x : Txn) (s : State), x.we = true → ∃ t r, exec (decodeTxn x) s = .next t ∧ t.resp = some r ∧ r.rdata = 0) ∧
  (∀ (i : Instr) (s : State), i.isTransaction = false → ∃ t, exec i s = .next t ∧ t.resp = none) ∧
  (∀ s : State, (engineTurn s).resp = none)

/-- R206: the error record is cleared only by a STATUS write with bit 3 = 1, which clears both fields in one step, and by
reset; after a clear the next rejected transaction is recorded afresh. -/
def Obligations.ErrorClearedOnlyByStatusWriteOrReset : Prop :=
  (∀ s t : State, step s = .next t → s.err = true → t.err = false ∨ t.errcode ≠ s.errcode →
    (∃ q, s.inbox = .reset :: q) ∨
    ∃ r q v, s.inbox = .record r :: q ∧ decode r = .ok (.wrStatus v) ∧ v.getLsbD 3 = true ∧ t.err = false ∧ t.errcode = 0) ∧
  (∀ (s : State) (q : List Stimulus), s.inbox = .reset :: q → ∃ t, step s = .next t ∧ t.err = false ∧ t.errcode = 0) ∧
  (∀ (s : State) (v : Word), v.getLsbD 3 = true → ∃ t, exec (.wrStatus v) s = .next t ∧ t.err = false ∧ t.errcode = 0 ∧
    ∀ (x : Txn) (e : ErrCode), rejection x t = some e → ∃ u, exec (decodeTxn x) t = .next u ∧ u.err = true ∧ u.errcode = errorCode e)

/-- R57, R58: every instruction but an accepted command is idempotent, a rejected EXPAND_ENC or EXPAND_DEC with it, and an
accepted read changes nothing; an accepted command repeated at once is rejected with code 5. -/
def Obligations.TransactionsIdempotent : Prop :=
  (∀ (i : Instr) (s t : State), WellFormed i → (i = .expandEnc ∨ i = .expandDec → s.busy = true ∨ s.keymask ≠ 0xF) →
    exec i s = .next t → exec i t = .next t) ∧
  (∀ (x : Txn) (s t : State) (v : Word), x.we = false → exec (decodeTxn x) s = .next t →
    t.resp = some { err := false, rdata := v } → t = acceptedWith v s) ∧
  (∀ s t : State, s.busy = false → s.keymask = 0xF →
    (exec .expandEnc s = .next t → exec .expandEnc t = .next (rejectedWith 5 t)) ∧
    (exec .expandDec s = .next t → exec .expandDec t = .next (rejectedWith 5 t)))

/-! ### The engine and reset -/

/-- R154: the completion step, enabled only while BUSY = 1. It touches neither ERR, ERRCODE, KEY, KEYMASK nor OP and gives no
response. That it comes at the clock step that finds CNT at 1 is the reading of log 3 (R155), and that a clock step of an idle
block does nothing that of log 14 (R217). -/
def Obligations.EngineCompletion : Prop :=
  (∀ (s : State) (q : List Stimulus), s.inbox = .clock :: q → s.busy = true → s.cnt ≤ 1 →
    ∃ t w, step s = .next t ∧ t.w = some w ∧ (∀ i : Fin 44, w[i] = pack32 (expand (keyBytes s.key))[i]) ∧
      (∀ n : Fin 16, (keyBytes s.key)[n] = (unpack32 s.key[n.val / 4])[n.val % 4]) ∧
      t.encValid = true ∧ t.decValid = (s.op == 2) ∧ t.busy = false ∧ t.resp = none ∧ t.inbox = q ∧
      { t with w := s.w, encValid := s.encValid, decValid := s.decValid, busy := s.busy, cnt := s.cnt, resp := s.resp, inbox := s.inbox } = s) ∧
  (∀ (s : State) (q : List Stimulus), s.inbox = .clock :: q → s.busy = false →
    step s = .next { s with inbox := q, resp := none })

/-- R155: the completion happens CNT clock cycles after acceptance and not before, and CNT is loaded with LAT_ENC or LAT_DEC,
at least 1. -/
def Obligations.CompletionAfterLatency : Prop :=
  (∀ s : State, s.busy = false → s.keymask = 0xF →
    (∃ t, exec .expandEnc s = .next t ∧ t.cnt = Config.latEnc ∧ 1 ≤ Config.latEnc) ∧
    ∃ t, exec .expandDec s = .next t ∧ t.cnt = Config.latDec ∧ 1 ≤ Config.latDec) ∧
  (∀ (s : State) (q : List Stimulus), s.busy = true → 1 ≤ s.cnt →
    (∀ n, n < s.cnt → ∃ t, Sys2Proof.core.run n (s.withInbox (List.replicate s.cnt .clock ++ q)) = .next t ∧ t.busy = true ∧ t.key = s.key) ∧
    Sys2Proof.core.run s.cnt (s.withInbox (List.replicate s.cnt .clock ++ q)) = .next (complete (s.withInbox q)))

/-- R155: with nothing left for the outside world to do, a busy engine completes (the model's form of weak fairness, log 4). -/
def Obligations.BusyEngineEventuallyCompletes : Prop :=
  ∀ s : State, s.busy = true → s.inbox = [] → ∃ n t, Sys2Proof.core.run n s = .next t ∧ t.busy = false ∧ t.encValid = true ∧
    t.decValid = (s.op == 2) ∧ t.w = some (expandedRegisters (keyBytes s.key)) ∧ t.key = s.key

/-- R84, R155: the host's wait loop. While BUSY = 1, poll number m (from 0), a clock cycle after each earlier poll, is answered
with bit 0 still 1 for m < CNT and with bit 0 = 0 from m = CNT on, so the loop ends; and n >= CNT turns leave the completed state.
R235: the canonical sequence on an idle block with no error on record, with at least LAT polls in its wait, leaves the expansion
of the key it loads, and its check holds. One clock cycle after each poll is the schedule of log 16, clock steps alone counting
is log 3. -/
def Obligations.WaitLoopEnds : Prop :=
  (∀ (m : Nat) (s : State), s.busy = true → 1 ≤ s.cnt →
    ∃ t r, Sys2Proof.core.run (2 * m + 1) (s.withInbox (waitStimuli (m + 1))) = .next t ∧ t.resp = some r ∧
      waitAgain r = decide (m < s.cnt)) ∧
  (∀ (n : Nat) (s : State), s.busy = true → 1 ≤ n → s.cnt ≤ n →
    ∃ t, Sys2Proof.core.run (2 * n) (s.withInbox (waitStimuli n)) = .next t ∧ t.busy = false ∧ t.encValid = true ∧
      t.decValid = (s.op == 2) ∧ t.w = some (expandedRegisters (keyBytes s.key)) ∧ t.key = s.key ∧ t.keymask = s.keymask ∧
      t.err = s.err ∧ t.errcode = s.errcode ∧ t.op = s.op ∧ t.inbox = []) ∧
  (∀ (dec : Bool) (k : KeyBytes) (n : Nat) (s : State), s.busy = false → s.err = false →
    (if dec then Config.latDec else Config.latEnc) ≤ n →
    ∃ t r, Sys2Proof.core.run (2 * n + 6) (s.withInbox (canonicalSequence k (if dec then .expandDec else .expandEnc) n)) = .next t ∧
      t.resp = some r ∧ checkHolds r = true ∧ t.busy = false ∧ t.encValid = true ∧ t.decValid = dec ∧
      t.w = some (expandedRegisters k) ∧ keyBytes t.key = k ∧ t.keymask = 0xF ∧ t.inbox = [])

/-- R230, R232 and the table of R39: the reset event from every state, also while BUSY = 1, as one atomic step (log 12), and no
completion after it. W and CNT are unspecified and left out. -/
def Obligations.ResetEventValues : Prop :=
  ∀ (s : State) (q : List Stimulus), s.inbox = .reset :: q →
    ∃ t, step s = .next t ∧ t.key = #v[0, 0, 0, 0] ∧ t.keymask = 0 ∧ t.busy = false ∧ t.op = 0 ∧ t.encValid = false ∧
      t.decValid = false ∧ t.err = false ∧ t.errcode = 0 ∧ statusWord t = 0 ∧ t.rkValid = false ∧ t.rkData = 0 ∧
      t.inbox = q ∧ ∀ n u, Sys2Proof.core.run n (t.withInbox (List.replicate n .clock)) = .next u → u.busy = false ∧ u.encValid = false ∧ u.decValid = false

/-- R231: after reset STATUS reads 0, every window read is rejected with code 6, and the port gives rk_valid = 0. -/
def Obligations.AfterResetHostView : Prop :=
  exec .rdStatus State.reset = .next (acceptedWith 0 State.reset) ∧
  (∀ n : Fin 4, exec (.rdKey n) State.reset = .next (acceptedWith 0 State.reset)) ∧
  (∀ i : Fin 44, exec (.rdExpw i) State.reset = .next (rejectedWith 6 State.reset)) ∧
  (∀ (k : Fin 11) (r : Fin 4), exec (.rdRk k r) State.reset = .next (rejectedWith 6 State.reset) ∧
    exec (.rdDrk k r) State.reset = .next (rejectedWith 6 State.reset)) ∧
  ∀ p : PortRequest, portValid State.reset p = false ∧ portData State.reset p = 0

/-! ### The whole machine -/

/-- A step runs the decoded instruction on the state with its record taken from the inbox (log 2); otherwise it is a clock cycle,
the engine's turn (log 3), a reset, or, with nothing left in the inbox, again the engine's turn (log 4, the model's form of the
weak fairness of R155). -/
def Obligations.StepRunsDecodedInstruction : Prop :=
  (∀ (s : State) (r : Record) (q : List Stimulus) (i : Instr), s.inbox = .record r :: q → decode r = .ok i →
    step s = exec i { s with inbox := q }) ∧
  (∀ (s : State) (q : List Stimulus), s.inbox = .clock :: q → step s = .next (engineTurn { s with inbox := q })) ∧
  (∀ (s : State) (q : List Stimulus), s.inbox = .reset :: q → step s = .next (resetEvent { s with inbox := q })) ∧
  (∀ s : State, s.inbox = [] → step s = .next (engineTurn s)) ∧
  (∀ (s : State) (nbits w : Nat) (i : Instr), decodeTableWord nbits w = some i → step (s.withFetchWord nbits w) = exec i s)

/-- The state after reset meets the invariant. -/
def Obligations.InvariantHoldsAtReset : Prop := BlockInv State.reset

/-- R34, R35 (with R24, R28, R31, R36): every step keeps the invariant, from every state that meets it. -/
def Obligations.StepKeepsInvariant : Prop :=
  ∀ s t : State, BlockInv s → step s = .next t → BlockInv t

/-- R207: with well-formed records in its inbox the machine never stops, however many steps it takes. -/
def Obligations.MachineNeverStops : Prop :=
  ∀ (n : Nat) (s : State), wellFormedInputs s.inbox → SafeFor n s

/-- R34 read at the interface: whatever the outputs show is the expansion of the key held, its repack and its decryption pass. -/
def Obligations.OutputsAreExpansionOfKey : Prop :=
  ∀ s : State, BlockInv s → s.encValid = true →
    (∀ i : Fin 44, exec (.rdExpw i) s = .next (acceptedWith (pack32 (expand (keyBytes s.key))[i]) s)) ∧
    (∀ (k : Fin 11) (r : Fin 4), exec (.rdRk k r) s = .next (acceptedWith
      (pack32 (Vector.ofFn fun c : Fin 4 => (repack (expand (keyBytes s.key)))[k][4 * r.val + c.val])) s)) ∧
    (s.decValid = true → ∀ (k : Fin 11) (r : Fin 4), exec (.rdDrk k r) s = .next (acceptedWith
      (pack32 (Vector.ofFn fun c : Fin 4 => (decPass (repack (expand (keyBytes s.key))))[k][4 * r.val + c.val])) s)) ∧
    (∀ k : Fin 11, portValid s { sel := false, idx := BitVec.ofNat 4 k.val } = true ∧
      portData s { sel := false, idx := BitVec.ofNat 4 k.val } = pack128 (repack (expand (keyBytes s.key)))[k]) ∧
    (s.decValid = true → ∀ k : Fin 11,
      portData s { sel := true, idx := BitVec.ofNat 4 k.val } = pack128 (decPass (repack (expand (keyBytes s.key))))[k])

/-- R25, R26, R31: only the completion step makes an output valid, and then W holds the expansion of the key. -/
def Obligations.OnlyCompletionValidatesOutputs : Prop :=
  ∀ s t : State, step s = .next t →
    (s.encValid = false ∧ t.encValid = true) ∨ (s.decValid = false ∧ t.decValid = true) →
    s.busy = true ∧ s.cnt ≤ 1 ∧ (s.inbox = [] ∨ ∃ q, s.inbox = .clock :: q) ∧
    t.w = some (expandedRegisters (keyBytes s.key)) ∧ t.key = s.key ∧ t.decValid = (s.op == 2)

/-- R22, R38: KEY and KEYMASK change only by reset and by a KEY write accepted with BUSY = 0; a KEYMASK bit is cleared only by
reset. -/
def Obligations.KeyChangesOnlyByKeyWriteOrReset : Prop :=
  ∀ s t : State, step s = .next t → (∀ q, s.inbox ≠ .reset :: q) →
    (∀ b : Fin 4, s.keymask.getLsbD b.val = true → t.keymask.getLsbD b.val = true) ∧
    (t.key ≠ s.key ∨ t.keymask ≠ s.keymask → s.busy = false ∧ ∃ r q n v, s.inbox = .record r :: q ∧
      decode r = .ok (.wrKey n v) ∧ t.key = s.key.set n.val v)

/-- R156, R240: while BUSY = 1 only reset and the completion end the operation, and the key, KEYMASK and OP stay as they were
accepted. -/
def Obligations.OperationRunsToCompletion : Prop :=
  ∀ s t : State, step s = .next t → s.busy = true → (∀ q, s.inbox ≠ .reset :: q) →
    t.key = s.key ∧ t.keymask = s.keymask ∧ t.op = s.op ∧
    (t.busy = false → s.cnt ≤ 1 ∧ (s.inbox = [] ∨ ∃ q, s.inbox = .clock :: q) ∧ t.encValid = true)

/-- R141: outputs stay readable and unchanged until an accepted KEY write, an accepted command or reset: under every other
instruction, and, in an idle block, under every step that runs none of the three, clock cycles and engine turns included. -/
def Obligations.OutputsStayReadable : Prop :=
  (∀ (i : Instr) (s t : State), WellFormed i → (∀ n v, i = .wrKey n v → s.busy = true) →
    (i = .expandEnc ∨ i = .expandDec → s.busy = true ∨ s.keymask ≠ 0xF) → exec i s = .next t →
    t.w = s.w ∧ t.encValid = s.encValid ∧ t.decValid = s.decValid ∧ t.busy = s.busy ∧ t.key = s.key ∧
    ∀ p, portValid t p = portValid s p ∧ portData t p = portData s p) ∧
  (∀ s t : State, s.busy = false → step s = .next t → (∀ q, s.inbox ≠ .reset :: q) →
    (∀ r q n v, s.inbox = .record r :: q → decode r ≠ .ok (.wrKey n v)) →
    (∀ r q, s.inbox = .record r :: q → decode r = .ok .expandEnc ∨ decode r = .ok .expandDec → s.keymask ≠ 0xF) →
    t.w = s.w ∧ t.encValid = s.encValid ∧ t.decValid = s.decValid ∧ t.busy = s.busy ∧ t.key = s.key ∧
    ∀ p, portValid t p = portValid s p ∧ portData t p = portData s p)

/-- R140: expanding the same key again gives the same words and the same round keys. -/
def Obligations.ReexpansionDeterministic : Prop :=
  ∀ s t : State, BlockInv s → s.encValid = true → exec .expandEnc s = .next t ∨ exec .expandDec s = .next t →
    (complete t).w = s.w ∧ (complete t).rk = s.rk ∧ (complete t).drk = s.drk

/-- R31, R36: nothing one instruction shows a host or a consumer depends on W while no output is valid, nor on CNT. A step, a clock
cycle included, depends on CNT only through whether a running operation has come to its end (CNT at 1, log 3). -/
def Obligations.HiddenStateUnobservable : Prop :=
  (∀ (i : Instr) (s : State) (x : Option (Vector Word 44)) (c : Nat), s.encValid = false → s.decValid = false →
    ∃ t u, exec i s = .next t ∧ exec i { s with w := x, cnt := c } = .next u ∧ t.observable = u.observable ∧
      ∀ p, portValid t p = portValid u p ∧ portData t p = portData u p) ∧
  (∀ (i : Instr) (s : State) (c : Nat), ∃ t u, exec i s = .next t ∧ exec i { s with cnt := c } = .next u ∧
    { t with cnt := 0 } = { u with cnt := 0 } ∧ ∀ p, portValid t p = portValid u p ∧ portData t p = portData u p) ∧
  (∀ (s t : State) (c : Nat), s.busy = false ∨ (s.cnt ≤ 1 ↔ c ≤ 1) → step s = .next t →
    ∃ u, step { s with cnt := c } = .next u ∧ { t with cnt := 0 } = { u with cnt := 0 } ∧
      ∀ p, portValid t p = portValid u p ∧ portData t p = portData u p)

/-- R83, R84, R235: what every assembler form, the pseudo-instructions and the canonical sequence spell, when the host's wait
goes on and when its check holds. The `.b` forms (half = false) have SIZE = 0 and the `.h` forms SIZE = 1 (R78, R83), the other
fields as rd and wr have them. Forms as data are log 17, wait as one poll a turn and its clock cycles log 16. -/
def Obligations.AssemblerForms : Prop :=
  (∀ t : Target, asmRecord (.rd t) = readRecord t.offset.toNat) ∧
  (∀ (t : Target) (v : Word), asmRecord (.wr t v) = writeRecord t.offset.toNat v) ∧
  (∀ a : BitVec 12, asmRecord (.rdAt a) = readRecord a.toNat) ∧
  (∀ (a : BitVec 12) (v : Word), asmRecord (.wrAt a v) = writeRecord a.toNat v) ∧
  (∀ k : BitVec 4, asmRecord (.portRk k) = .port (BitVec.ofNat 8 k.toNat) ∧
    asmRecord (.portDrk k) = .port (BitVec.ofNat 8 (16 + k.toNat))) ∧
  (∀ (t : Target) (v : Word),
    asmRecord (.rdSized false t) = .txn64 (0x0000000000000000#64 ||| (BitVec.ofNat 64 t.offset.toNat <<< 32)) ∧
    asmRecord (.rdSized true t) = .txn64 (0x1000000000000000#64 ||| (BitVec.ofNat 64 t.offset.toNat <<< 32)) ∧
    asmRecord (.wrSized false t v) = .txn64 (0x8000000000000000#64 ||| (BitVec.ofNat 64 t.offset.toNat <<< 32) ||| v.setWidth 64) ∧
    asmRecord (.wrSized true t v) = .txn64 (0x9000000000000000#64 ||| (BitVec.ofNat 64 t.offset.toNat <<< 32) ||| v.setWidth 64)) ∧
  (∀ (half : Bool) (t : Target) (v : Word) (s : State), ∃ i j, decode (asmRecord (.rdSized half t)) = .ok i ∧
    exec i s = .next (rejectedWith 2 s) ∧ decode (asmRecord (.wrSized half t v)) = .ok j ∧ exec j s = .next (rejectedWith 2 s)) ∧
  (∀ k : KeyBytes, pseudoStimuli (.loadkey k) =
    [.record (writeRecord 0x000 (pack32 #v[k[0], k[1], k[2], k[3]])), .record (writeRecord 0x004 (pack32 #v[k[4], k[5], k[6], k[7]])),
     .record (writeRecord 0x008 (pack32 #v[k[8], k[9], k[10], k[11]])),
     .record (writeRecord 0x00C (pack32 #v[k[12], k[13], k[14], k[15]]))]) ∧
  (∀ (k : KeyBytes) (s : State), s.busy = false → ∃ t,
    Sys2Proof.core.run 4 (s.withInbox (pseudoStimuli (.loadkey k))) = .next t ∧ keyBytes t.key = k ∧ t.keymask = 0xF) ∧
  pseudoStimuli .expandEnc = [.record (writeRecord 0x010 1)] ∧
  pseudoStimuli .expandDec = [.record (writeRecord 0x010 2)] ∧
  pseudoStimuli .clrerr = [.record (writeRecord 0x014 8)] ∧
  pseudoStimuli .wait = [.record (readRecord 0x014)] ∧
  pseudoStimuli .check = [.record (readRecord 0x014)] ∧
  (∀ s : State, ∃ t r, exec .rdStatus s = .next t ∧ t.resp = some r ∧ waitAgain r = s.busy ∧ checkHolds r = !s.err) ∧
  (∀ (k : KeyBytes) (p : Pseudo) (n : Nat), canonicalSequence k p n = pseudoStimuli (.loadkey k) ++ pseudoStimuli p ++
    (List.replicate n [.record (readRecord 0x014), .clock]).flatten ++ [.record (readRecord 0x014)])
end

