-- ==== Sys2Proof/Laws/Bytes.lean ====
section
/-! SUPPORT. The byte-order functions and the word transforms, each said once: packing is a bijection (spec/00_scope.md R10), and
what each function puts in each byte. -/

namespace Sys2Proof.Machine

open BitVec

theorem keyWord_ext {a b : KeyWord} (h0 : a[0] = b[0]) (h1 : a[1] = b[1]) (h2 : a[2] = b[2]) (h3 : a[3] = b[3]) :
    a = b := by
  apply Vector.ext
  intro i hi
  have : i = 0 ∨ i = 1 ∨ i = 2 ∨ i = 3 := by omega
  rcases this with rfl | rfl | rfl | rfl <;> assumption

/-! ### pack32 and unpack32 -/

@[simp] theorem unpack32_getElem_zero (v : Word) : (unpack32 v)[0] = v.extractLsb' 24 8 := rfl
@[simp] theorem unpack32_getElem_one (v : Word) : (unpack32 v)[1] = v.extractLsb' 16 8 := rfl
@[simp] theorem unpack32_getElem_two (v : Word) : (unpack32 v)[2] = v.extractLsb' 8 8 := rfl
@[simp] theorem unpack32_getElem_three (v : Word) : (unpack32 v)[3] = v.extractLsb' 0 8 := rfl

/-- Byte 0 is in bits 31:24. -/
theorem extract_pack32_zero (a : KeyWord) : (pack32 a).extractLsb' 24 8 = a[0] := by
  unfold pack32
  rw [extractLsb'_append_eq_of_le (by decide), extractLsb'_append_eq_of_le (by decide), extractLsb'_append_eq_of_le (by decide)]
  simp

/-- Byte 1 is in bits 23:16. -/
theorem extract_pack32_one (a : KeyWord) : (pack32 a).extractLsb' 16 8 = a[1] := by
  unfold pack32
  rw [extractLsb'_append_eq_of_le (by decide), extractLsb'_append_eq_of_le (by decide), extractLsb'_append_eq_of_add_le (by decide)]
  simp

/-- Byte 2 is in bits 15:8. -/
theorem extract_pack32_two (a : KeyWord) : (pack32 a).extractLsb' 8 8 = a[2] := by
  unfold pack32
  rw [extractLsb'_append_eq_of_le (by decide), extractLsb'_append_eq_of_add_le (by decide)]
  simp

/-- Byte 3 is in bits 7:0. -/
theorem extract_pack32_three (a : KeyWord) : (pack32 a).extractLsb' 0 8 = a[3] := by
  unfold pack32
  rw [extractLsb'_append_eq_of_add_le (by decide)]
  simp

@[simp] theorem unpack32_pack32 (a : KeyWord) : unpack32 (pack32 a) = a := by
  apply keyWord_ext <;>
    simp only [unpack32_getElem_zero, unpack32_getElem_one, unpack32_getElem_two, unpack32_getElem_three,
      extract_pack32_zero, extract_pack32_one, extract_pack32_two, extract_pack32_three]

@[simp] theorem pack32_unpack32 (v : Word) : pack32 (unpack32 v) = v := by
  show v.extractLsb' 24 8 ++ v.extractLsb' 16 8 ++ v.extractLsb' 8 8 ++ v.extractLsb' 0 8 = v
  rw [extractLsb'_append_extractLsb'_eq_extractLsb' (by rfl), extractLsb'_append_extractLsb'_eq_extractLsb' (by rfl),
    extractLsb'_append_extractLsb'_eq_extractLsb' (by rfl)]
  simp

/-! ### Words of the schedule, byte by byte -/

@[simp] theorem rotWord_getElem_zero (a : KeyWord) : (rotWord a)[0] = a[1] := rfl
@[simp] theorem rotWord_getElem_one (a : KeyWord) : (rotWord a)[1] = a[2] := rfl
@[simp] theorem rotWord_getElem_two (a : KeyWord) : (rotWord a)[2] = a[3] := rfl
@[simp] theorem rotWord_getElem_three (a : KeyWord) : (rotWord a)[3] = a[0] := rfl

theorem subWord_getElem (a : KeyWord) (j : Nat) (h : j < 4) : (subWord a)[j] = sbox a[j] := by
  have : j = 0 ∨ j = 1 ∨ j = 2 ∨ j = 3 := by omega
  rcases this with rfl | rfl | rfl | rfl <;> rfl

theorem xorWord_getElem (a b : KeyWord) (j : Nat) (h : j < 4) : (xorWord a b)[j] = a[j] ^^^ b[j] := by
  have : j = 0 ∨ j = 1 ∨ j = 2 ∨ j = 3 := by omega
  rcases this with rfl | rfl | rfl | rfl <;> rfl

@[simp] theorem transformT_getElem_zero (a : KeyWord) (i : Nat) : (transformT a i)[0] = sbox a[1] ^^^ rcon (i / 4) := rfl
@[simp] theorem transformT_getElem_one (a : KeyWord) (i : Nat) : (transformT a i)[1] = sbox a[2] := rfl
@[simp] theorem transformT_getElem_two (a : KeyWord) (i : Nat) : (transformT a i)[2] = sbox a[3] := rfl
@[simp] theorem transformT_getElem_three (a : KeyWord) (i : Nat) : (transformT a i)[3] = sbox a[0] := rfl

@[simp] theorem blockRow_getElem (x : Block) (r : Fin 4) (c : Nat) (h : c < 4) : (blockRow x r)[c] = x[4 * r.val + c] := by
  simp [blockRow]

@[simp] theorem keyBytes_getElem (key : Vector Word 4) (n : Nat) (h : n < 16) :
    (keyBytes key)[n] = (unpack32 key[n / 4])[n % 4] := by simp [keyBytes]

@[simp] theorem keyWords_getElem (k : KeyBytes) (i : Nat) (h : i < 4) : (keyWords k)[i] = blockRow k ⟨i, h⟩ := by
  simp [keyWords]

@[simp] theorem invMixColumns_getElem (x : Block) (n : Nat) (h : n < 16) :
    (invMixColumns x)[n] = (invMixCol (blockColumn x ⟨n % 4, by omega⟩))[n / 4] := by simp [invMixColumns]

/-! ### The expansion, word by word -/

/-- A word already computed stays as it is. -/
theorem expandTo_succ_getElem_lt (k : KeyBytes) (n i : Nat) (h : i < 4 + n) :
    (expandTo k (n + 1))[i] = (expandTo k n)[i] := by
  simp only [expandTo]
  exact Vector.getElem_push_lt h

/-- The word added last. -/
theorem expandTo_succ_getElem_last (k : KeyBytes) (n : Nat) :
    (expandTo k (n + 1))[4 + n] =
      xorWord (expandTo k n)[n]
        (if (4 + n) % 4 = 0 then transformT (expandTo k n)[n + 3] (4 + n) else (expandTo k n)[n + 3]) := by
  simp only [expandTo]
  exact Vector.getElem_push_eq

/-- Every longer prefix of the expansion holds the words of a shorter one. -/
theorem expandTo_prefix (k : KeyBytes) (n m i : Nat) (h : i < 4 + n) :
    (expandTo k (n + m))[i]'(by omega) = (expandTo k n)[i] := by
  induction m with
  | zero => rfl
  | succ m ih =>
    have := expandTo_succ_getElem_lt k (n + m) i (by omega)
    exact this.trans ih

@[simp] theorem expandedBytes_getElem (w : Vector KeyWord 44) (n : Nat) (h : n < 176) :
    (expandedBytes w)[n] = w[n / 4][n % 4] := by simp [expandedBytes]

theorem repack_getElem (w : Vector KeyWord 44) (k n : Nat) (hk : k < 11) (hn : n < 16) :
    (repack w)[k][n] = (expandedBytes w)[16 * k + 4 * (n % 4) + n / 4] := by simp [repack]

theorem decPass_getElem (x : Vector Block 11) (k : Nat) (hk : k < 11) :
    (decPass x)[k] = if 1 ≤ k ∧ k ≤ 9 then invMixColumns x[k] else x[k] := by simp [decPass]

@[simp] theorem expandedRegisters_getElem (k : KeyBytes) (i : Nat) (h : i < 44) :
    (expandedRegisters k)[i] = pack32 (expand k)[i] := by simp [expandedRegisters]

end Sys2Proof.Machine
end

