-- ==== Sys2Proof/Laws/Decode.lean ====
section
/-! SUPPORT. The fields of a TXN64 record (spec/30_encoding.md R71) and of a port byte (R79), one lemma per field. -/

namespace Sys2Proof

open BitVec

@[simp] theorem Txn.toRecord_wdata (t : Txn) : t.toRecord.extractLsb' 0 32 = t.wdata := by
  unfold Txn.toRecord
  rw [extractLsb'_append_eq_of_add_le (by decide)]
  simp

@[simp] theorem Txn.toRecord_addr (t : Txn) : t.toRecord.extractLsb' 32 12 = t.addr := by
  unfold Txn.toRecord
  rw [extractLsb'_append_eq_of_le (by decide), extractLsb'_append_eq_of_add_le (by decide)]
  simp

@[simp] theorem Txn.toRecord_reserved (t : Txn) : t.toRecord.extractLsb' 44 16 = 0 := by
  unfold Txn.toRecord
  rw [extractLsb'_append_eq_of_le (by decide), extractLsb'_append_eq_of_le (by decide), extractLsb'_append_eq_of_add_le (by decide)]
  simp

@[simp] theorem Txn.toRecord_size (t : Txn) : t.toRecord.extractLsb' 60 2 = t.size := by
  unfold Txn.toRecord
  rw [extractLsb'_append_eq_of_le (by decide), extractLsb'_append_eq_of_le (by decide), extractLsb'_append_eq_of_le (by decide),
    extractLsb'_append_eq_of_add_le (by decide)]
  simp

@[simp] theorem Txn.toRecord_reserved62 (t : Txn) : t.toRecord.extractLsb' 62 1 = 0 := by
  unfold Txn.toRecord
  rw [extractLsb'_append_eq_of_le (by decide), extractLsb'_append_eq_of_le (by decide), extractLsb'_append_eq_of_le (by decide),
    extractLsb'_append_eq_of_le (by decide), extractLsb'_append_eq_of_add_le (by decide)]
  simp

@[simp] theorem Txn.toRecord_we (t : Txn) : t.toRecord.getLsbD 63 = t.we := by
  unfold Txn.toRecord
  simp only [getLsbD_append]
  simp

@[simp] theorem PortRequest.toByte_sel (p : PortRequest) : p.toByte.getLsbD 4 = p.sel := by
  unfold PortRequest.toByte
  simp only [getLsbD_append]
  simp

@[simp] theorem PortRequest.toByte_idx (p : PortRequest) : p.toByte.extractLsb' 0 4 = p.idx := by
  unfold PortRequest.toByte
  rw [extractLsb'_append_eq_of_add_le (by decide)]
  simp

@[simp] theorem PortRequest.toByte_high (p : PortRequest) : p.toByte.extractLsb' 5 3 = 0 := by
  unfold PortRequest.toByte
  rw [extractLsb'_append_eq_of_le (by decide), extractLsb'_append_eq_of_le (by decide)]
  simp

end Sys2Proof
end

