-- ==== Sys2Proof/Laws/State.lean ====
section
/-! SUPPORT. One lemma per field per update of the state, so that no later proof unfolds a record update. -/

namespace Sys2Proof.Machine

/-! ### withInbox -/

@[simp] theorem withInbox_key (s : State) (q : List Stimulus) : (s.withInbox q).key = s.key := rfl
@[simp] theorem withInbox_keymask (s : State) (q : List Stimulus) : (s.withInbox q).keymask = s.keymask := rfl
@[simp] theorem withInbox_busy (s : State) (q : List Stimulus) : (s.withInbox q).busy = s.busy := rfl
@[simp] theorem withInbox_op (s : State) (q : List Stimulus) : (s.withInbox q).op = s.op := rfl
@[simp] theorem withInbox_encValid (s : State) (q : List Stimulus) : (s.withInbox q).encValid = s.encValid := rfl
@[simp] theorem withInbox_decValid (s : State) (q : List Stimulus) : (s.withInbox q).decValid = s.decValid := rfl
@[simp] theorem withInbox_err (s : State) (q : List Stimulus) : (s.withInbox q).err = s.err := rfl
@[simp] theorem withInbox_errcode (s : State) (q : List Stimulus) : (s.withInbox q).errcode = s.errcode := rfl
@[simp] theorem withInbox_w (s : State) (q : List Stimulus) : (s.withInbox q).w = s.w := rfl
@[simp] theorem withInbox_cnt (s : State) (q : List Stimulus) : (s.withInbox q).cnt = s.cnt := rfl
@[simp] theorem withInbox_resp (s : State) (q : List Stimulus) : (s.withInbox q).resp = s.resp := rfl
@[simp] theorem withInbox_portReq (s : State) (q : List Stimulus) : (s.withInbox q).portReq = s.portReq := rfl
@[simp] theorem withInbox_inbox (s : State) (q : List Stimulus) : (s.withInbox q).inbox = q := rfl

/-! ### silent -/

@[simp] theorem silent_key (s : State) : (s.silent).key = s.key := rfl
@[simp] theorem silent_keymask (s : State) : (s.silent).keymask = s.keymask := rfl
@[simp] theorem silent_busy (s : State) : (s.silent).busy = s.busy := rfl
@[simp] theorem silent_op (s : State) : (s.silent).op = s.op := rfl
@[simp] theorem silent_encValid (s : State) : (s.silent).encValid = s.encValid := rfl
@[simp] theorem silent_decValid (s : State) : (s.silent).decValid = s.decValid := rfl
@[simp] theorem silent_err (s : State) : (s.silent).err = s.err := rfl
@[simp] theorem silent_errcode (s : State) : (s.silent).errcode = s.errcode := rfl
@[simp] theorem silent_w (s : State) : (s.silent).w = s.w := rfl
@[simp] theorem silent_cnt (s : State) : (s.silent).cnt = s.cnt := rfl
@[simp] theorem silent_resp (s : State) : (s.silent).resp = none := rfl
@[simp] theorem silent_portReq (s : State) : (s.silent).portReq = s.portReq := rfl
@[simp] theorem silent_inbox (s : State) : (s.silent).inbox = s.inbox := rfl

/-! ### respondOk -/

@[simp] theorem respondOk_key (v : Word) (s : State) : (respondOk v s).key = s.key := rfl
@[simp] theorem respondOk_keymask (v : Word) (s : State) : (respondOk v s).keymask = s.keymask := rfl
@[simp] theorem respondOk_busy (v : Word) (s : State) : (respondOk v s).busy = s.busy := rfl
@[simp] theorem respondOk_op (v : Word) (s : State) : (respondOk v s).op = s.op := rfl
@[simp] theorem respondOk_encValid (v : Word) (s : State) : (respondOk v s).encValid = s.encValid := rfl
@[simp] theorem respondOk_decValid (v : Word) (s : State) : (respondOk v s).decValid = s.decValid := rfl
@[simp] theorem respondOk_err (v : Word) (s : State) : (respondOk v s).err = s.err := rfl
@[simp] theorem respondOk_errcode (v : Word) (s : State) : (respondOk v s).errcode = s.errcode := rfl
@[simp] theorem respondOk_w (v : Word) (s : State) : (respondOk v s).w = s.w := rfl
@[simp] theorem respondOk_cnt (v : Word) (s : State) : (respondOk v s).cnt = s.cnt := rfl
@[simp] theorem respondOk_resp (v : Word) (s : State) : (respondOk v s).resp = some { err := false, rdata := v } := rfl
@[simp] theorem respondOk_portReq (v : Word) (s : State) : (respondOk v s).portReq = s.portReq := rfl
@[simp] theorem respondOk_inbox (v : Word) (s : State) : (respondOk v s).inbox = s.inbox := rfl

/-! ### clearError -/

@[simp] theorem clearError_key (s : State) : (clearError s).key = s.key := rfl
@[simp] theorem clearError_keymask (s : State) : (clearError s).keymask = s.keymask := rfl
@[simp] theorem clearError_busy (s : State) : (clearError s).busy = s.busy := rfl
@[simp] theorem clearError_op (s : State) : (clearError s).op = s.op := rfl
@[simp] theorem clearError_encValid (s : State) : (clearError s).encValid = s.encValid := rfl
@[simp] theorem clearError_decValid (s : State) : (clearError s).decValid = s.decValid := rfl
@[simp] theorem clearError_err (s : State) : (clearError s).err = false := rfl
@[simp] theorem clearError_errcode (s : State) : (clearError s).errcode = 0 := rfl
@[simp] theorem clearError_w (s : State) : (clearError s).w = s.w := rfl
@[simp] theorem clearError_cnt (s : State) : (clearError s).cnt = s.cnt := rfl
@[simp] theorem clearError_resp (s : State) : (clearError s).resp = s.resp := rfl
@[simp] theorem clearError_portReq (s : State) : (clearError s).portReq = s.portReq := rfl
@[simp] theorem clearError_inbox (s : State) : (clearError s).inbox = s.inbox := rfl

/-! ### invalidate -/

@[simp] theorem invalidate_key (s : State) : (invalidate s).key = s.key := rfl
@[simp] theorem invalidate_keymask (s : State) : (invalidate s).keymask = s.keymask := rfl
@[simp] theorem invalidate_busy (s : State) : (invalidate s).busy = s.busy := rfl
@[simp] theorem invalidate_op (s : State) : (invalidate s).op = s.op := rfl
@[simp] theorem invalidate_encValid (s : State) : (invalidate s).encValid = false := rfl
@[simp] theorem invalidate_decValid (s : State) : (invalidate s).decValid = false := rfl
@[simp] theorem invalidate_err (s : State) : (invalidate s).err = s.err := rfl
@[simp] theorem invalidate_errcode (s : State) : (invalidate s).errcode = s.errcode := rfl
@[simp] theorem invalidate_w (s : State) : (invalidate s).w = none := rfl
@[simp] theorem invalidate_cnt (s : State) : (invalidate s).cnt = s.cnt := rfl
@[simp] theorem invalidate_resp (s : State) : (invalidate s).resp = s.resp := rfl
@[simp] theorem invalidate_portReq (s : State) : (invalidate s).portReq = s.portReq := rfl
@[simp] theorem invalidate_inbox (s : State) : (invalidate s).inbox = s.inbox := rfl

/-! ### storeKey -/

@[simp] theorem storeKey_key (n : Fin 4) (v : Word) (s : State) : (storeKey n v s).key = s.key.set n.val v := rfl
@[simp] theorem storeKey_keymask (n : Fin 4) (v : Word) (s : State) : (storeKey n v s).keymask = keymaskWith s.keymask n := rfl
@[simp] theorem storeKey_busy (n : Fin 4) (v : Word) (s : State) : (storeKey n v s).busy = s.busy := rfl
@[simp] theorem storeKey_op (n : Fin 4) (v : Word) (s : State) : (storeKey n v s).op = s.op := rfl
@[simp] theorem storeKey_encValid (n : Fin 4) (v : Word) (s : State) : (storeKey n v s).encValid = s.encValid := rfl
@[simp] theorem storeKey_decValid (n : Fin 4) (v : Word) (s : State) : (storeKey n v s).decValid = s.decValid := rfl
@[simp] theorem storeKey_err (n : Fin 4) (v : Word) (s : State) : (storeKey n v s).err = s.err := rfl
@[simp] theorem storeKey_errcode (n : Fin 4) (v : Word) (s : State) : (storeKey n v s).errcode = s.errcode := rfl
@[simp] theorem storeKey_w (n : Fin 4) (v : Word) (s : State) : (storeKey n v s).w = s.w := rfl
@[simp] theorem storeKey_cnt (n : Fin 4) (v : Word) (s : State) : (storeKey n v s).cnt = s.cnt := rfl
@[simp] theorem storeKey_resp (n : Fin 4) (v : Word) (s : State) : (storeKey n v s).resp = s.resp := rfl
@[simp] theorem storeKey_portReq (n : Fin 4) (v : Word) (s : State) : (storeKey n v s).portReq = s.portReq := rfl
@[simp] theorem storeKey_inbox (n : Fin 4) (v : Word) (s : State) : (storeKey n v s).inbox = s.inbox := rfl

/-! ### startEngine -/

@[simp] theorem startEngine_key (op : BitVec 2) (s : State) : (startEngine op s).key = s.key := rfl
@[simp] theorem startEngine_keymask (op : BitVec 2) (s : State) : (startEngine op s).keymask = s.keymask := rfl
@[simp] theorem startEngine_busy (op : BitVec 2) (s : State) : (startEngine op s).busy = true := rfl
@[simp] theorem startEngine_op (op : BitVec 2) (s : State) : (startEngine op s).op = op := rfl
@[simp] theorem startEngine_encValid (op : BitVec 2) (s : State) : (startEngine op s).encValid = s.encValid := rfl
@[simp] theorem startEngine_decValid (op : BitVec 2) (s : State) : (startEngine op s).decValid = s.decValid := rfl
@[simp] theorem startEngine_err (op : BitVec 2) (s : State) : (startEngine op s).err = s.err := rfl
@[simp] theorem startEngine_errcode (op : BitVec 2) (s : State) : (startEngine op s).errcode = s.errcode := rfl
@[simp] theorem startEngine_w (op : BitVec 2) (s : State) : (startEngine op s).w = s.w := rfl
@[simp] theorem startEngine_cnt (op : BitVec 2) (s : State) : (startEngine op s).cnt = commandLatency op := rfl
@[simp] theorem startEngine_resp (op : BitVec 2) (s : State) : (startEngine op s).resp = s.resp := rfl
@[simp] theorem startEngine_portReq (op : BitVec 2) (s : State) : (startEngine op s).portReq = s.portReq := rfl
@[simp] theorem startEngine_inbox (op : BitVec 2) (s : State) : (startEngine op s).inbox = s.inbox := rfl

/-! ### drivePort -/

@[simp] theorem drivePort_key (p : PortRequest) (s : State) : (drivePort p s).key = s.key := rfl
@[simp] theorem drivePort_keymask (p : PortRequest) (s : State) : (drivePort p s).keymask = s.keymask := rfl
@[simp] theorem drivePort_busy (p : PortRequest) (s : State) : (drivePort p s).busy = s.busy := rfl
@[simp] theorem drivePort_op (p : PortRequest) (s : State) : (drivePort p s).op = s.op := rfl
@[simp] theorem drivePort_encValid (p : PortRequest) (s : State) : (drivePort p s).encValid = s.encValid := rfl
@[simp] theorem drivePort_decValid (p : PortRequest) (s : State) : (drivePort p s).decValid = s.decValid := rfl
@[simp] theorem drivePort_err (p : PortRequest) (s : State) : (drivePort p s).err = s.err := rfl
@[simp] theorem drivePort_errcode (p : PortRequest) (s : State) : (drivePort p s).errcode = s.errcode := rfl
@[simp] theorem drivePort_w (p : PortRequest) (s : State) : (drivePort p s).w = s.w := rfl
@[simp] theorem drivePort_cnt (p : PortRequest) (s : State) : (drivePort p s).cnt = s.cnt := rfl
@[simp] theorem drivePort_resp (p : PortRequest) (s : State) : (drivePort p s).resp = none := rfl
@[simp] theorem drivePort_portReq (p : PortRequest) (s : State) : (drivePort p s).portReq = p := rfl
@[simp] theorem drivePort_inbox (p : PortRequest) (s : State) : (drivePort p s).inbox = s.inbox := rfl

/-! ### complete -/

@[simp] theorem complete_key (s : State) : (complete s).key = s.key := rfl
@[simp] theorem complete_keymask (s : State) : (complete s).keymask = s.keymask := rfl
@[simp] theorem complete_busy (s : State) : (complete s).busy = false := rfl
@[simp] theorem complete_op (s : State) : (complete s).op = s.op := rfl
@[simp] theorem complete_encValid (s : State) : (complete s).encValid = true := rfl
@[simp] theorem complete_decValid (s : State) : (complete s).decValid = (s.op == 2) := rfl
@[simp] theorem complete_err (s : State) : (complete s).err = s.err := rfl
@[simp] theorem complete_errcode (s : State) : (complete s).errcode = s.errcode := rfl
@[simp] theorem complete_w (s : State) : (complete s).w = some (expandedRegisters (keyBytes s.key)) := rfl
@[simp] theorem complete_cnt (s : State) : (complete s).cnt = 0 := rfl
@[simp] theorem complete_resp (s : State) : (complete s).resp = none := rfl
@[simp] theorem complete_portReq (s : State) : (complete s).portReq = s.portReq := rfl
@[simp] theorem complete_inbox (s : State) : (complete s).inbox = s.inbox := rfl

/-! ### resetEvent -/

@[simp] theorem resetEvent_key (s : State) : (resetEvent s).key = #v[0, 0, 0, 0] := rfl
@[simp] theorem resetEvent_keymask (s : State) : (resetEvent s).keymask = 0 := rfl
@[simp] theorem resetEvent_busy (s : State) : (resetEvent s).busy = false := rfl
@[simp] theorem resetEvent_op (s : State) : (resetEvent s).op = 0 := rfl
@[simp] theorem resetEvent_encValid (s : State) : (resetEvent s).encValid = false := rfl
@[simp] theorem resetEvent_decValid (s : State) : (resetEvent s).decValid = false := rfl
@[simp] theorem resetEvent_err (s : State) : (resetEvent s).err = false := rfl
@[simp] theorem resetEvent_errcode (s : State) : (resetEvent s).errcode = 0 := rfl
@[simp] theorem resetEvent_w (s : State) : (resetEvent s).w = none := rfl
@[simp] theorem resetEvent_cnt (s : State) : (resetEvent s).cnt = 0 := rfl
@[simp] theorem resetEvent_resp (s : State) : (resetEvent s).resp = none := rfl
@[simp] theorem resetEvent_portReq (s : State) : (resetEvent s).portReq = s.portReq := rfl
@[simp] theorem resetEvent_inbox (s : State) : (resetEvent s).inbox = s.inbox := rfl

/-! ### recordError and raiseBusError (R201, R202) -/

@[simp] theorem recordError_key (c : ErrCode) (s : State) : (recordError c s).key = s.key := by
  unfold recordError; split <;> rfl
@[simp] theorem recordError_keymask (c : ErrCode) (s : State) : (recordError c s).keymask = s.keymask := by
  unfold recordError; split <;> rfl
@[simp] theorem recordError_busy (c : ErrCode) (s : State) : (recordError c s).busy = s.busy := by
  unfold recordError; split <;> rfl
@[simp] theorem recordError_op (c : ErrCode) (s : State) : (recordError c s).op = s.op := by
  unfold recordError; split <;> rfl
@[simp] theorem recordError_encValid (c : ErrCode) (s : State) : (recordError c s).encValid = s.encValid := by
  unfold recordError; split <;> rfl
@[simp] theorem recordError_decValid (c : ErrCode) (s : State) : (recordError c s).decValid = s.decValid := by
  unfold recordError; split <;> rfl
@[simp] theorem recordError_err (c : ErrCode) (s : State) : (recordError c s).err = true := by
  unfold recordError; split <;> simp_all
@[simp] theorem recordError_errcode (c : ErrCode) (s : State) :
    (recordError c s).errcode = if s.err then s.errcode else errorCode c := by
  unfold recordError; split <;> rfl
@[simp] theorem recordError_w (c : ErrCode) (s : State) : (recordError c s).w = s.w := by
  unfold recordError; split <;> rfl
@[simp] theorem recordError_cnt (c : ErrCode) (s : State) : (recordError c s).cnt = s.cnt := by
  unfold recordError; split <;> rfl
@[simp] theorem recordError_resp (c : ErrCode) (s : State) : (recordError c s).resp = s.resp := by
  unfold recordError; split <;> rfl
@[simp] theorem recordError_portReq (c : ErrCode) (s : State) : (recordError c s).portReq = s.portReq := by
  unfold recordError; split <;> rfl
@[simp] theorem recordError_inbox (c : ErrCode) (s : State) : (recordError c s).inbox = s.inbox := by
  unfold recordError; split <;> rfl
@[simp] theorem raiseBusError_key (c : ErrCode) (s : State) : (raiseBusError c s).key = s.key := recordError_key c s
@[simp] theorem raiseBusError_keymask (c : ErrCode) (s : State) : (raiseBusError c s).keymask = s.keymask := recordError_keymask c s
@[simp] theorem raiseBusError_busy (c : ErrCode) (s : State) : (raiseBusError c s).busy = s.busy := recordError_busy c s
@[simp] theorem raiseBusError_op (c : ErrCode) (s : State) : (raiseBusError c s).op = s.op := recordError_op c s
@[simp] theorem raiseBusError_encValid (c : ErrCode) (s : State) : (raiseBusError c s).encValid = s.encValid := recordError_encValid c s
@[simp] theorem raiseBusError_decValid (c : ErrCode) (s : State) : (raiseBusError c s).decValid = s.decValid := recordError_decValid c s
@[simp] theorem raiseBusError_err (c : ErrCode) (s : State) : (raiseBusError c s).err = true := recordError_err c s
@[simp] theorem raiseBusError_errcode (c : ErrCode) (s : State) :
    (raiseBusError c s).errcode = if s.err then s.errcode else errorCode c := recordError_errcode c s
@[simp] theorem raiseBusError_w (c : ErrCode) (s : State) : (raiseBusError c s).w = s.w := recordError_w c s
@[simp] theorem raiseBusError_cnt (c : ErrCode) (s : State) : (raiseBusError c s).cnt = s.cnt := recordError_cnt c s
@[simp] theorem raiseBusError_resp (c : ErrCode) (s : State) :
    (raiseBusError c s).resp = some { err := true, rdata := 0 } := rfl
@[simp] theorem raiseBusError_portReq (c : ErrCode) (s : State) : (raiseBusError c s).portReq = s.portReq := recordError_portReq c s
@[simp] theorem raiseBusError_inbox (c : ErrCode) (s : State) : (raiseBusError c s).inbox = s.inbox := recordError_inbox c s

end Sys2Proof.Machine
end

