-- ==== Sys2Proof/Laws/Ops.lean ====
section
/-! SUPPORT. What each shared operation can do, said once: the cases a caller cites instead of unfolding the operation. -/

namespace Sys2Proof.Machine

/-- A KEY write (R172) is rejected while busy and stores otherwise. -/
theorem keyWrite_cases (n : Fin 4) (v : Word) (s : State) :
    (s.busy = true ∧ keyWrite n v s = raiseBusError .busy s) ∨
    (s.busy = false ∧ keyWrite n v s = respondOk 0 (invalidate (storeKey n v s))) := by
  unfold keyWrite
  cases h : s.busy <;> simp

/-- A CMD write (R150): the three checks in order, else the engine starts. -/
theorem cmdWrite_cases (v : Word) (s : State) :
    (s.busy = true ∧ cmdWrite v s = raiseBusError .busy s) ∨
    (s.busy = false ∧ legalCommand v = false ∧ cmdWrite v s = raiseBusError .cmd s) ∨
    (s.busy = false ∧ legalCommand v = true ∧ keyComplete s = false ∧ cmdWrite v s = raiseBusError .key s) ∨
    (s.busy = false ∧ legalCommand v = true ∧ keyComplete s = true ∧
      cmdWrite v s = respondOk 0 (invalidate (startEngine (v.extractLsb' 0 2) s))) := by
  unfold cmdWrite
  cases hb : s.busy <;> cases hl : legalCommand v <;> cases hk : keyComplete s <;> simp

/-- A window read (R177, R179, R181): busy, not ready, or the value. -/
theorem windowRead_cases (valid : Bool) (v : Word) (s : State) :
    (s.busy = true ∧ windowRead valid v s = raiseBusError .busy s) ∨
    (s.busy = false ∧ valid = false ∧ windowRead valid v s = raiseBusError .notReady s) ∨
    (s.busy = false ∧ valid = true ∧ windowRead valid v s = respondOk v s) := by
  unfold windowRead
  cases hb : s.busy <;> cases valid <;> simp

/-- The engine's turn (R154, R155): idle, counting, or completing. -/
theorem engineTurn_cases (s : State) :
    (s.busy = false ∧ engineTurn s = s.silent) ∨
    (s.busy = true ∧ 1 < s.cnt ∧ engineTurn s = { s.silent with cnt := s.cnt - 1 }) ∨
    (s.busy = true ∧ s.cnt ≤ 1 ∧ engineTurn s = complete s) := by
  unfold engineTurn
  cases hb : s.busy
  · simp
  · by_cases hc : s.cnt ≤ 1
    · simp [hc]
    · simp [hc, Nat.lt_of_not_le hc]

/-- Everything an instruction can do to the state: reject, answer a value, store a key word, start the engine, clear the
error record, or drive the port. -/
theorem exec_cases (i : Instr) (s : State) :
    (∃ c, exec i s = .next (raiseBusError c s)) ∨
    (∃ v, exec i s = .next (respondOk v s)) ∨
    (∃ n v, i = .wrKey n v ∧ s.busy = false ∧ exec i s = .next (respondOk 0 (invalidate (storeKey n v s)))) ∨
    (∃ v, legalCommand v = true ∧ (i = .expandEnc ∧ v = 1 ∨ i = .expandDec ∧ v = 2 ∨ i = .cmdIllegal v) ∧ s.busy = false ∧
      keyComplete s = true ∧ exec i s = .next (respondOk 0 (invalidate (startEngine (v.extractLsb' 0 2) s)))) ∨
    (∃ v, i = .wrStatus v ∧ errClr v = true ∧ exec i s = .next (respondOk 0 (clearError s))) ∨
    (∃ p, i.isTransaction = false ∧ exec i s = .next (drivePort p s)) := by
  cases i with
  | anyMisaligned t => exact .inl ⟨_, rfl⟩
  | anyBadsize t => exact .inl ⟨_, rfl⟩
  | rdKey n => exact .inr (.inl ⟨_, rfl⟩)
  | wrKey n data =>
    obtain ⟨_, h⟩ | ⟨hb, h⟩ := keyWrite_cases n data s
    · exact .inl ⟨_, congrArg _ h⟩
    · exact .inr (.inr (.inl ⟨n, data, rfl, hb, congrArg _ h⟩))
  | rdCmd => exact .inl ⟨_, rfl⟩
  | expandEnc =>
    obtain ⟨_, h⟩ | ⟨_, _, h⟩ | ⟨_, _, _, h⟩ | ⟨hb, hl, hk, h⟩ := cmdWrite_cases 1 s
    · exact .inl ⟨_, congrArg _ h⟩
    · exact .inl ⟨_, congrArg _ h⟩
    · exact .inl ⟨_, congrArg _ h⟩
    · exact .inr (.inr (.inr (.inl ⟨1, hl, .inl ⟨rfl, rfl⟩, hb, hk, congrArg _ h⟩)))
  | expandDec =>
    obtain ⟨_, h⟩ | ⟨_, _, h⟩ | ⟨_, _, _, h⟩ | ⟨hb, hl, hk, h⟩ := cmdWrite_cases 2 s
    · exact .inl ⟨_, congrArg _ h⟩
    · exact .inl ⟨_, congrArg _ h⟩
    · exact .inl ⟨_, congrArg _ h⟩
    · exact .inr (.inr (.inr (.inl ⟨2, hl, .inr (.inl ⟨rfl, rfl⟩), hb, hk, congrArg _ h⟩)))
  | cmdIllegal v =>
    obtain ⟨_, h⟩ | ⟨_, _, h⟩ | ⟨_, _, _, h⟩ | ⟨hb, hl, hk, h⟩ := cmdWrite_cases v s
    · exact .inl ⟨_, congrArg _ h⟩
    · exact .inl ⟨_, congrArg _ h⟩
    · exact .inl ⟨_, congrArg _ h⟩
    · exact .inr (.inr (.inr (.inl ⟨v, hl, .inr (.inr rfl), hb, hk, congrArg _ h⟩)))
  | rdStatus => exact .inr (.inl ⟨_, rfl⟩)
  | wrStatus v =>
    cases h : errClr v
    · refine .inr (.inl ⟨0, ?_⟩)
      simp [exec, execWrStatus, h]
    · refine .inr (.inr (.inr (.inr (.inl ⟨v, rfl, h, ?_⟩))))
      simp [exec, execWrStatus, h]
  | rdExpw n =>
    obtain ⟨_, h⟩ | ⟨_, _, h⟩ | ⟨_, _, h⟩ := windowRead_cases s.encValid (s.wReg n) s
    · exact .inl ⟨_, congrArg _ h⟩
    · exact .inl ⟨_, congrArg _ h⟩
    · exact .inr (.inl ⟨_, congrArg _ h⟩)
  | wrExpw n v => exact .inl ⟨_, rfl⟩
  | rdRk k r =>
    obtain ⟨_, h⟩ | ⟨_, _, h⟩ | ⟨_, _, h⟩ := windowRead_cases s.encValid (pack32 (blockRow s.rk[k] r)) s
    · exact .inl ⟨_, congrArg _ h⟩
    · exact .inl ⟨_, congrArg _ h⟩
    · exact .inr (.inl ⟨_, congrArg _ h⟩)
  | wrRk k r v => exact .inl ⟨_, rfl⟩
  | rdDrk k r =>
    obtain ⟨_, h⟩ | ⟨_, _, h⟩ | ⟨_, _, h⟩ := windowRead_cases s.decValid (pack32 (blockRow s.drk[k] r)) s
    · exact .inl ⟨_, congrArg _ h⟩
    · exact .inl ⟨_, congrArg _ h⟩
    · exact .inr (.inl ⟨_, congrArg _ h⟩)
  | wrDrk k r v => exact .inl ⟨_, rfl⟩
  | rdUnmapped a => exact .inl ⟨_, rfl⟩
  | wrUnmapped a v => exact .inl ⟨_, rfl⟩
  | portRk k => exact .inr (.inr (.inr (.inr (.inr ⟨_, rfl, rfl⟩))))
  | portDrk k => exact .inr (.inr (.inr (.inr (.inr ⟨_, rfl, rfl⟩))))
  | portBadidx sel idx => exact .inr (.inr (.inr (.inr (.inr ⟨_, rfl, rfl⟩))))

/-- Everything a step can do. -/
theorem step_cases (s : State) :
    (s.inbox = [] ∧ step s = .next (engineTurn s)) ∨
    (∃ q, s.inbox = .clock :: q ∧ step s = .next (engineTurn (s.withInbox q))) ∨
    (∃ q, s.inbox = .reset :: q ∧ step s = .next (resetEvent (s.withInbox q))) ∨
    (∃ r q i, s.inbox = .record r :: q ∧ decode r = .ok i ∧ step s = exec i (s.withInbox q)) ∨
    (∃ r q e, s.inbox = .record r :: q ∧ decode r = .error e ∧ step s = .refused (.notATransaction e)) := by
  unfold step
  rcases h : s.inbox with _ | ⟨_ | _ | _, q⟩
  · simp
  · rename_i r
    rcases hd : decode r with e | i
    · exact .inr (.inr (.inr (.inr ⟨r, q, e, rfl, hd, by simp [hd]⟩)))
    · exact .inr (.inr (.inr (.inl ⟨r, q, i, rfl, hd, by simp [hd]⟩)))
  · exact .inr (.inl ⟨q, rfl, rfl⟩)
  · exact .inr (.inr (.inl ⟨q, rfl, rfl⟩))

@[simp] theorem run_zero (s : State) : Sys2Proof.core.run 0 s = .next s := rfl

/-- A run goes on from the next state of its first step. -/
theorem run_succ_of_step {s t : State} (n : Nat) (h : step s = .next t) : Sys2Proof.core.run (n + 1) s = Sys2Proof.core.run n t := by
  have h' : Sys2Proof.core.step s = .next t := h
  simp only [Host.Core.run, h']

/-- A run goes on from the state an earlier part of it reached. -/
theorem run_add_of_run {s t : State} (m n : Nat) (h : Sys2Proof.core.run m s = .next t) :
    Sys2Proof.core.run (m + n) s = Sys2Proof.core.run n t := by
  induction m generalizing s with
  | zero => cases h; rw [Nat.zero_add]
  | succ m ih =>
    rcases hs : step s with u | f | r
    · rw [run_succ_of_step m hs] at h
      rw [Nat.add_right_comm, run_succ_of_step (m + n) hs, ih h]
    · have hs' : Sys2Proof.core.step s = .fault f := hs
      simp [Host.Core.run, hs'] at h
    · have hs' : Sys2Proof.core.step s = .refused r := hs
      simp [Host.Core.run, hs'] at h

/-- A step that takes a record runs what it decodes to. -/
theorem step_of_record {r : Record} {i : Instr} (hd : decode r = .ok i) (s : State) (q : List Stimulus) :
    step (s.withInbox (.record r :: q)) = exec i (s.withInbox q) := by
  simp [step, State.withInbox, hd]

/-- A step that takes a clock cycle is the engine's turn. -/
theorem step_of_clock (s : State) (q : List Stimulus) :
    step (s.withInbox (.clock :: q)) = .next (engineTurn (s.withInbox q)) := by
  simp [step, State.withInbox]

/-- The engine's turn reads nothing of the inbox. -/
theorem engineTurn_withInbox (s : State) (q : List Stimulus) : engineTurn (s.withInbox q) = (engineTurn s).withInbox q := by
  unfold engineTurn
  cases hb : s.busy
  · simp [hb]; rfl
  · by_cases hc : s.cnt ≤ 1 <;> simp [hb, hc] <;> rfl

/-- The port's outputs read BUSY, the valid bits and W, and nothing else of the state. -/
theorem port_congr {s t : State} (hw : t.w = s.w) (hb : t.busy = s.busy) (he : t.encValid = s.encValid) (hd : t.decValid = s.decValid)
    (p : PortRequest) : portValid t p = portValid s p ∧ portData t p = portData s p := by
  have hv : portValid t p = portValid s p := by simp [portValid, hb, he, hd]
  have hrk : t.rk = s.rk := by simp [State.rk, State.words, State.wReg, hw]
  exact ⟨hv, by simp [portData, hv, State.drk, hrk]⟩

/-- The same rejection again changes nothing: the first error is kept (R202). -/
theorem raiseBusError_idem (c : ErrCode) (s : State) : raiseBusError c (raiseBusError c s) = raiseBusError c s := by
  unfold raiseBusError recordError
  cases h : s.err <;> simp [h]

end Sys2Proof.Machine
end

