-- ==== Sys2Proof/Laws/PerInstr.lean ====
section
/-! SUPPORT. Statements made instruction by instruction. RecordForm: the encoding of a well-formed instruction is a record that
spells a transaction (spec/30_encoding.md R71) or a port request (R79). -/

namespace Sys2Proof.Laws.RecordForm

/-- The encoding is the record of a transaction whose read data is 0, or the byte of a port request. -/
def Statement (i : Instr) : Prop :=
  WellFormed i → (∃ t : Txn, encode i = .txn64 t.toRecord ∧ t.spellable = true) ∨ ∃ p : PortRequest, encode i = .port p.toByte

theorem anyMisaligned (t : Txn) : Statement (.anyMisaligned t) := fun h => .inl ⟨t, rfl, by simp [WellFormed, Instr.wf] at h; exact h.2⟩
theorem anyBadsize (t : Txn) : Statement (.anyBadsize t) := fun h => .inl ⟨t, rfl, by simp [WellFormed, Instr.wf] at h; exact h.2⟩
theorem rdKey (n : Fin 4) : Statement (.rdKey n) := fun _ => .inl ⟨_, rfl, rfl⟩
theorem wrKey (n : Fin 4) (data : Word) : Statement (.wrKey n data) := fun _ => .inl ⟨_, rfl, rfl⟩
theorem rdCmd : Statement (.rdCmd) := fun _ => .inl ⟨_, rfl, rfl⟩
theorem expandEnc : Statement (.expandEnc) := fun _ => .inl ⟨_, rfl, rfl⟩
theorem expandDec : Statement (.expandDec) := fun _ => .inl ⟨_, rfl, rfl⟩
theorem cmdIllegal (wdata : Word) : Statement (.cmdIllegal wdata) := fun _ => .inl ⟨_, rfl, rfl⟩
theorem rdStatus : Statement (.rdStatus) := fun _ => .inl ⟨_, rfl, rfl⟩
theorem wrStatus (wdata : Word) : Statement (.wrStatus wdata) := fun _ => .inl ⟨_, rfl, rfl⟩
theorem rdExpw (i : Fin 44) : Statement (.rdExpw i) := fun _ => .inl ⟨_, rfl, rfl⟩
theorem wrExpw (i : Fin 44) (wdata : Word) : Statement (.wrExpw i wdata) := fun _ => .inl ⟨_, rfl, rfl⟩
theorem rdRk (k : Fin 11) (r : Fin 4) : Statement (.rdRk k r) := fun _ => .inl ⟨_, rfl, rfl⟩
theorem wrRk (k : Fin 11) (r : Fin 4) (wdata : Word) : Statement (.wrRk k r wdata) := fun _ => .inl ⟨_, rfl, rfl⟩
theorem rdDrk (k : Fin 11) (r : Fin 4) : Statement (.rdDrk k r) := fun _ => .inl ⟨_, rfl, rfl⟩
theorem wrDrk (k : Fin 11) (r : Fin 4) (wdata : Word) : Statement (.wrDrk k r wdata) := fun _ => .inl ⟨_, rfl, rfl⟩
theorem rdUnmapped (addr : BitVec 12) : Statement (.rdUnmapped addr) := fun _ => .inl ⟨_, rfl, rfl⟩
theorem wrUnmapped (addr : BitVec 12) (wdata : Word) : Statement (.wrUnmapped addr wdata) := fun _ => .inl ⟨_, rfl, rfl⟩
theorem portRk (k : Fin 11) : Statement (.portRk k) := fun _ => .inr ⟨_, rfl⟩
theorem portDrk (k : Fin 11) : Statement (.portDrk k) := fun _ => .inr ⟨_, rfl⟩
theorem portBadidx (sel : Bool) (idx : BitVec 4) : Statement (.portBadidx sel idx) := fun _ => .inr ⟨_, rfl⟩

end Sys2Proof.Laws.RecordForm
end

