-- ==== Sys2Proof/Tests/Slice0.lean ====
section
/-! SUPPORT. The model's own tests. Expected results come from spec/95_test_vectors.md (the B, PT and EXP vectors and the tables
of sections 2.1 to 2.5) or are worked out from the rule named; then a witness for each statement that has hypotheses. -/

namespace Sys2Proof.Tests

open Sys2Proof.Machine Sys2Proof.Claims

/-! ### WellFormed refuses an ill-formed term for each of its checks -/

theorem test_wf_misaligned_refuses_aligned : Instr.wf (.anyMisaligned ⟨true, 2, 0x100, 0⟩) = false := by decide
theorem test_wf_misaligned_refuses_read_data : Instr.wf (.anyMisaligned ⟨false, 2, 0x101, 1⟩) = false := by decide
theorem test_wf_badsize_refuses_word_size : Instr.wf (.anyBadsize ⟨true, 2, 0x100, 0⟩) = false := by decide
theorem test_wf_badsize_refuses_misaligned : Instr.wf (.anyBadsize ⟨true, 1, 0x102, 0⟩) = false := by decide
theorem test_wf_badsize_refuses_read_data : Instr.wf (.anyBadsize ⟨false, 1, 0x100, 1⟩) = false := by decide
theorem test_wf_cmd_illegal_refuses_legal : Instr.wf (.cmdIllegal 1) = false ∧ Instr.wf (.cmdIllegal 2) = false := by decide
theorem test_wf_rd_unmapped_refuses_mapped : Instr.wf (.rdUnmapped 0x1AC) = false ∧ Instr.wf (.rdUnmapped 0x1B1) = false := by decide
theorem test_wf_wr_unmapped_refuses_mapped : Instr.wf (.wrUnmapped 0x014 0) = false ∧ Instr.wf (.wrUnmapped 0x2AC 0) = false := by decide
theorem test_wf_port_badidx_refuses_ten : Instr.wf (.portBadidx true 10) = false ∧ Instr.wf (.portBadidx true 11) = true := by decide

/-! ### Decoding: a word of every row, written out from R71, R72, R79 and the offsets of R52 -/

theorem test_decode_any_misaligned : decodeTableWord 64 0x8000010100000000 = some (.anyMisaligned ⟨true, 0, 0x101, 0⟩) := by decide
theorem test_decode_any_badsize : decodeTableWord 64 0x0000001400000000 = some (.anyBadsize ⟨false, 0, 0x014, 0⟩) := by decide
theorem test_decode_rd_key : decodeTableWord 64 0x2000000C00000000 = some (.rdKey 3) := by decide
theorem test_decode_wr_key : decodeTableWord 64 0xA00000002B7E1516 = some (.wrKey 0 0x2B7E1516) := by decide
theorem test_decode_rd_cmd : decodeTableWord 64 0x2000001000000000 = some .rdCmd := by decide
theorem test_decode_expand_enc : decodeTableWord 64 0xA000001000000001 = some .expandEnc := by decide
theorem test_decode_expand_dec : decodeTableWord 64 0xA000001000000002 = some .expandDec := by decide
theorem test_decode_cmd_illegal : decodeTableWord 64 0xA000001000000011 = some (.cmdIllegal 0x11) := by decide
theorem test_decode_rd_status : decodeTableWord 64 0x2000001400000000 = some .rdStatus := by decide
theorem test_decode_wr_status : decodeTableWord 64 0xA0000014FFFFFFF7 = some (.wrStatus 0xFFFFFFF7) := by decide
theorem test_decode_rd_expw : decodeTableWord 64 0x200001AC00000000 = some (.rdExpw 43) := by decide
theorem test_decode_wr_expw : decodeTableWord 64 0xA00001AC00000005 = some (.wrExpw 43 5) := by decide
theorem test_decode_rd_rk : decodeTableWord 64 0x200002AC00000000 = some (.rdRk 10 3) := by decide
theorem test_decode_wr_rk : decodeTableWord 64 0xA000020000000001 = some (.wrRk 0 0 1) := by decide
theorem test_decode_rd_drk : decodeTableWord 64 0x2000039C00000000 = some (.rdDrk 9 3) := by decide
theorem test_decode_wr_drk : decodeTableWord 64 0xA000035C00000001 = some (.wrDrk 5 3 1) := by decide
theorem test_decode_rd_unmapped : decodeTableWord 64 0x20000FFC00000000 = some (.rdUnmapped 0xFFC) := by decide
theorem test_decode_wr_unmapped : decodeTableWord 64 0xA00000FC00000001 = some (.wrUnmapped 0x0FC 1) := by decide
theorem test_decode_port_rk : decodeTableWord 8 0x0A = some (.portRk 10) := by decide
theorem test_decode_port_drk : decodeTableWord 8 0x11 = some (.portDrk 1) := by decide
theorem test_decode_port_badidx : decodeTableWord 8 0x1F = some (.portBadidx true 15) := by decide
theorem test_decode_reserved_bit_refused : decodeTableWord 64 0x6000001400000000 = none := by decide
theorem test_decode_read_data_refused : decodeTableWord 64 0x2000001400000001 = none := by decide
theorem test_decode_port_high_bits_refused : decodeTableWord 8 0x20 = none := by decide

/-! ### Start states of section 2.7, and what a step shows -/

/-- S1: reset, then `loadkey K8`. -/
def stateS1 : State := { State.reset with key := #v[0x2b7e1516, 0x28aed2a6, 0xabf71588, 0x09cf4f3c], keymask := 0xF }

/-- S2: EXPAND_ENC accepted, one cycle left. -/
def stateS2 : State := { stateS1 with busy := true, op := 1, cnt := 1 }

/-- S2d: EXPAND_DEC accepted, one cycle left. -/
def stateS2d : State := { stateS1 with busy := true, op := 2, cnt := 1 }

/-- S3: S2 completed. -/
def stateS3 : State := complete stateS2

/-- S3e: S3 with a recorded ERR_NOTREADY. -/
def stateS3e : State := { stateS3 with err := true, errcode := 6 }

/-- S4: S2d completed. -/
def stateS4 : State := complete stateS2d

/-- The response and the STATUS word of the state a step gives. -/
def observe : Result → Option (Option Response × Word)
  | .next s => some (s.resp, statusWord s)
  | .fault _ => none
  | .refused _ => none

/-- A step that runs one TXN64 record. -/
def runRecord (s : State) (w : Nat) : Option (Option Response × Word) := observe (step (s.withFetchWord 64 w))

/-- A step that drives one port request: rk_valid and rk_data after it. -/
def runPort (s : State) (q : Nat) : Option (Bool × BitVec 128) :=
  match step (s.withFetchWord 8 q) with
  | .next t => some (t.rkValid, t.rkData)
  | .fault _ => none
  | .refused _ => none

/-! ### Transactions (the B vectors) -/

theorem test_rd_key_busy_B3 : runRecord stateS2 0x2000000C00000000 =
    some (some ⟨false, 0x09cf4f3c⟩, 0x000010f1) := by decide
theorem test_rd_key_S1_B2 : runRecord stateS1 0x2000000800000000 =
    some (some ⟨false, 0xabf71588⟩, 0x000000f0) := by decide
theorem test_wr_key_reset_B4 : runRecord State.reset 0xA000000428AED2A6 =
    some (some ⟨false, 0⟩, 0x00000020) := by decide
theorem test_wr_key_busy_B5 : runRecord stateS2 0xA000000412345678 =
    some (some ⟨true, 0⟩, 0x000015f9) := by decide
theorem test_rd_cmd_B8 : runRecord stateS1 0x2000001000000000 =
    some (some ⟨true, 0⟩, 0x000004f8) := by decide
theorem test_expand_enc_after_dec_B14 : runRecord stateS4 0xA000001000000001 =
    some (some ⟨false, 0⟩, 0x000010f1) := by decide
theorem test_expand_enc_no_key_B11 : runRecord State.reset 0xA000001000000001 =
    some (some ⟨true, 0⟩, 0x00000808) := by decide
theorem test_expand_dec_B10 : runRecord stateS1 0xA000001000000002 =
    some (some ⟨false, 0⟩, 0x000020f1) := by decide
theorem test_expand_dec_busy_B12 : runRecord stateS2 0xA000001000000002 =
    some (some ⟨true, 0⟩, 0x000015f9) := by decide
theorem test_cmd_illegal_before_key_B19 : runRecord State.reset 0xA000001000000007 =
    some (some ⟨true, 0⟩, 0x00000708) := by decide
theorem test_cmd_illegal_busy_B20 : runRecord stateS2 0xA000001000000000 =
    some (some ⟨true, 0⟩, 0x000015f9) := by decide
theorem test_rd_status_B24 : runRecord stateS3e 0x2000001400000000 =
    some (some ⟨false, 0x000016fa⟩, 0x000016fa) := by decide
theorem test_rd_status_B23 : runRecord stateS4 0x2000001400000000 =
    some (some ⟨false, 0x000020f6⟩, 0x000020f6) := by decide
theorem test_wr_status_clears_B25 : runRecord stateS3e 0xA000001400000008 =
    some (some ⟨false, 0⟩, 0x000010f2) := by decide
theorem test_wr_status_bit3_zero_B26 : runRecord stateS3e 0xA0000014FFFFFFF7 =
    some (some ⟨false, 0⟩, 0x000016fa) := by decide
theorem test_rd_expw_last_B30 : runRecord stateS3 0x200001AC00000000 =
    some (some ⟨false, 0xb6630ca6⟩, 0x000010f2) := by decide +kernel
theorem test_rd_expw_not_ready_B31 : runRecord stateS1 0x2000010000000000 =
    some (some ⟨true, 0⟩, 0x000006f8) := by decide
theorem test_wr_expw_busy_B34 : runRecord stateS2 0xA00001AC00000005 =
    some (some ⟨true, 0⟩, 0x000014f9) := by decide
theorem test_rd_rk_B36 : runRecord stateS3 0x2000021C00000000 =
    some (some ⟨false, 0x17b13905⟩, 0x000010f2) := by decide +kernel
theorem test_rd_rk_last_B37 : runRecord stateS3 0x200002AC00000000 =
    some (some ⟨false, 0xa889c8a6⟩, 0x000010f2) := by decide +kernel
theorem test_wr_rk_busy_B61 : runRecord stateS2 0xA000020000000000 =
    some (some ⟨true, 0⟩, 0x000014f9) := by decide
theorem test_rd_drk_B43 : runRecord stateS4 0x2000039C00000000 =
    some (some ⟨false, 0x63fe90b4⟩, 0x000020f6) := by decide +kernel
theorem test_rd_drk_after_enc_B45 : runRecord stateS3 0x2000031000000000 =
    some (some ⟨true, 0⟩, 0x000016fa) := by decide
theorem test_wr_drk_B47 : runRecord stateS4 0xA00003AC00000000 =
    some (some ⟨true, 0⟩, 0x000024fe) := by decide
theorem test_rd_unmapped_B51 : runRecord stateS3 0x200003B000000000 =
    some (some ⟨true, 0⟩, 0x000013fa) := by decide
theorem test_wr_unmapped_B53 : runRecord stateS3 0xA00000FC00000001 =
    some (some ⟨true, 0⟩, 0x000013fa) := by decide
theorem test_misaligned_before_size_B56 : runRecord stateS3 0x8000010100000000 =
    some (some ⟨true, 0⟩, 0x000011fa) := by decide
theorem test_badsize_before_addr_B60 : runRecord stateS3 0x3000001800000000 =
    some (some ⟨true, 0⟩, 0x000012fa) := by decide
theorem test_first_error_wins_B48_from_S3e : runRecord stateS3e 0x2000001800000000 =
    some (some ⟨true, 0⟩, 0x000016fa) := by decide

theorem test_wr_key_stores_B4 :
    (match step (State.reset.withFetchWord 64 0xA000000428AED2A6) with | .next t => some t.key | _ => none) =
      some #v[0, 0x28aed2a6, 0, 0] := by decide

theorem test_reserved_record_refused :
    step (stateS3.withFetchWord 64 0x6000001400000000) = .refused (.notATransaction .reservedBits) := rfl

/-! ### The round-key port (the PT vectors) -/

theorem test_port_rk_PT2 : runPort stateS3 0x01 = some (true, 0xa088232afa54a36cfe2c397617b13905) := by decide +kernel
theorem test_port_rk_busy_PT16 : runPort stateS2 0x00 = some (false, 0) := by decide
theorem test_port_drk_PT10 : runPort stateS4 0x19 = some (true, 0x0c13b0667b19394c5aea88fb63fe90b4) := by decide +kernel
theorem test_port_drk_after_enc_PT6 : runPort stateS3 0x11 = some (false, 0) := by decide
theorem test_port_badidx_PT4 : runPort stateS3 0x0B = some (false, 0) := by decide

/-! ### Engine and reset (section 2.7 S3, S4; RS2) -/

theorem test_engine_completes_S2 : observe (step (stateS2.withInbox [.clock])) = some (none, 0x000010f2) := by decide
theorem test_engine_completes_S2d : observe (step stateS2d) = some (none, 0x000020f6) := by decide
theorem test_reset_while_busy_RS2 : observe (step (stateS2.withInbox [.reset])) = some (none, 0) := by decide

/-! ### Transforms (sections 2.1 to 2.6) -/

theorem test_gmul : gmul 0x57 0x83 = 0xc1 ∧ gmul 0x57 0x13 = 0xfe ∧ gmul 0xff 0x09 = 0x46 ∧ gmul 0x53 0x0e = 0x5f := by decide
theorem test_xtime : xtime 0xae = 0x47 ∧ xtime 0x47 = 0x8e := by decide
theorem test_sbox : sbox 0x53 = 0xed ∧ sbox 0x00 = 0x63 ∧ sbox 0xff = 0x16 ∧ sbox 0x09 = 0x01 ∧ sbox 0x8d = 0x5d := by decide
theorem test_sbox_no_fixed_point : ∀ x : Byte, sbox x ≠ x := by decide
theorem test_sub_rot_word : pack32 (subWord (rotWord (unpack32 0x575c006e))) = 0x4a639f5b := by decide
theorem test_transform_T_40 : pack32 (transformT (unpack32 0x575c006e) 40) = 0x7c639f5b := by decide
theorem test_inv_mix_col : pack32 (invMixCol (unpack32 0xd4d4d4d5)) = 0xddd9dfda := by decide
theorem test_expand_EXP5_word43 :
    pack32 (expand (keyBytes #v[0x6920e299, 0xa5202a6d, 0x656e6368, 0x69746f2a]))[43] = 0x4858f6b1 := by decide
theorem test_decPass_EXP2_round1 :
    pack128 (decPass (repack (expand (keyBytes #v[0, 0, 0, 0]))))[1] = 0x6d6d6d6d6a6a6a6a6e6e6e6e68686868 := by decide +kernel

/-! ### Assembler (R84): `loadkey` spells the four key words of KAT-1 (program P1, steps 1 to 4) -/

theorem test_loadkey_records : pseudoStimuli (.loadkey katKey) =
    [.record (.txn64 0xA00000002B7E1516), .record (.txn64 0xA000000428AED2A6), .record (.txn64 0xA0000008ABF71588),
     .record (.txn64 0xA000000C09CF4F3C)] := by decide
theorem test_asm_byte_read : asmRecord (.rdSized false .status) = .txn64 0x0000001400000000 := by decide

/-! ### Witnesses: for each statement with hypotheses, states and operands that meet them, clause by clause -/

theorem witness_inv_stateS3 : BlockInv stateS3 where
  outputs := fun _ => rfl
  status := ⟨by decide, by decide, by decide, by decide⟩
  fields := ⟨by decide, by decide, by decide, by decide, by decide, by decide, by decide⟩

theorem witness_inv_stateS4 : BlockInv stateS4 where
  outputs := fun _ => rfl
  status := ⟨by decide, by decide, by decide, by decide⟩
  fields := ⟨by decide, by decide, by decide, by decide, by decide, by decide, by decide⟩

theorem witness_inv_stateS2 : BlockInv stateS2 where
  outputs := fun h => absurd h (by decide)
  status := ⟨by decide, by decide, by decide, by decide⟩
  fields := ⟨by decide, by decide, by decide, by decide, by decide, by decide, by decide⟩

theorem witness_DecodeEncodeRoundTrip :
    WellFormed (.anyMisaligned ⟨false, 3, 0xFFF, 0⟩) ∧ WellFormed (.anyBadsize ⟨true, 3, 0xFFC, 7⟩) ∧ WellFormed (.wrKey 3 0xFFFFFFFF) ∧
      WellFormed (.cmdIllegal 0) ∧ WellFormed (.rdUnmapped 0x018) ∧ WellFormed (.wrUnmapped 0xFFC 1) ∧ WellFormed (.portBadidx true 15) ∧
      WellFormed (.rdExpw 43) := by decide

theorem witness_EncodeDecodeRoundTrip :
    decode (.txn64 0x8000010100000000) = .ok (.anyMisaligned ⟨true, 0, 0x101, 0⟩) ∧ decode (.port 0x1A) = .ok (.portDrk 10) := by decide

theorem witness_DecoderAgreesWithOpcodeTable : (0x1F : BitVec 8).toNat < 32 ∧ tableMnemonic 0xA0000010FFFFFFFF = some "CMD_ILLEGAL" := by decide

theorem witness_TxnRecordLayoutAndRefusal :
    (⟨false, 2, 0x014, 0⟩ : Txn).wdata = 0 ∧ (⟨true, 2, 0x014, 8⟩ : Txn).we = true ∧
      (State.reset.pushRecord (.txn64 0x2000001400000001)).inbox = [.record (.txn64 0x2000001400000001)] ∧
      decode (.txn64 0x2000001400000001) = .error .readWithData ∧ decode (.txn64 0x0000100000000000) = .error .reservedBits ∧
      decode (.txn64 0xC000000000000000) = .error .reservedBits := by decide

theorem witness_MappedOffsets :
    regAt 0x1AC = some (.expw 43) ∧ regAt 0x000 = some (.key 0) ∧ regAt 0x3AC = some (.drk 10 3) ∧
      regAt 0x018 = none ∧ regAt 0xFFC = none ∧ (0xFFC : BitVec 12).toNat % 4 = 0 := by decide

theorem witness_PortRequestEncoding : (10 : BitVec 4).toNat ≤ 10 ∧ 11 ≤ (11 : BitVec 4).toNat := by decide

theorem witness_XtimeRule : (0x80 : Byte).getLsbD 7 = true ∧ (0x7f : Byte).getLsbD 7 = false := by decide

theorem witness_SboxTableIsConstruction : (0x53 : Byte) ≠ 0 := by decide

theorem witness_WordTransforms : 4 % 4 = 0 ∧ 4 ≤ 40 ∧ 40 % 4 = 0 ∧ rcon (1 + 1) = 0x02 ∧ 1 ≤ 9 ∧ rcon (9 + 1) = 0x36 := by decide

theorem witness_InvMixColumnsByColumn : ∀ r : Fin 4,
    (Vector.replicate 16 (1 : Byte))[4 * r.val + 2] = (Vector.replicate 16 (1 : Byte))[4 * r.val + 2] := fun _ => rfl

theorem witness_ExpansionRecurrence : (4 : Nat) < 44 ∧ 4 % 4 = 0 ∧ (43 : Nat) < 44 ∧ 43 % 4 ≠ 0 := by decide

theorem witness_DecPassMixesMiddleRounds : 1 ≤ (1 : Fin 11).val ∧ (1 : Fin 11).val ≤ 9 ∧ 1 ≤ (9 : Fin 11).val ∧ (9 : Fin 11).val ≤ 9 := by decide

theorem witness_RdKeyRespondsKey : State.reset.busy = false := rfl

theorem witness_WrKeyStoresAndInvalidates : stateS2.busy = true ∧ stateS3.busy = false ∧ (0 : Fin 4) ≠ 3 := by decide

theorem witness_CmdWriteChecksInOrder :
    stateS2.busy = true ∧ stateS1.busy = false ∧ (0x11 : Word) ≠ 1 ∧ (0x11 : Word) ≠ 2 ∧ State.reset.busy = false ∧
      State.reset.keymask ≠ 0xF ∧ stateS1.keymask = 0xF := by decide

theorem witness_ExpandEncStartsAndCompletes : stateS1.busy = false ∧ stateS1.keymask = 0xF := by decide

theorem witness_ExpandDecStartsAndCompletes : stateS3.busy = false ∧ stateS3.keymask = 0xF := by decide

theorem witness_CmdIllegalRejected : (0 : Word) ≠ 1 ∧ (0 : Word) ≠ 2 ∧ stateS1.busy = false ∧ stateS2.busy = true := by decide

theorem witness_WrStatusClearsError :
    (0x8 : Word).getLsbD 3 = true ∧ (0xFFFFFFF7 : Word).getLsbD 3 = false ∧ (3 : BitVec 2) ≠ 2 ∧ (0x015 : BitVec 12) = 0x015 := by decide

theorem witness_RdExpwRespondsWord :
    stateS2.busy = true ∧ stateS1.busy = false ∧ stateS1.encValid = false ∧ stateS3.busy = false ∧ stateS3.encValid = true ∧
      stateS3.w = some (expandedRegisters (keyBytes stateS3.key)) ∧ OutputsMatchKey stateS3 ∧ 0x1B0 ≤ (0x1B0 : BitVec 12).toNat ∧
      (0x1B0 : BitVec 12).toNat ≤ 0x1FC := ⟨rfl, rfl, rfl, rfl, rfl, rfl, fun _ => rfl, by decide, by decide⟩

theorem witness_RdRkRespondsRow :
    stateS2.busy = true ∧ stateS1.busy = false ∧ stateS1.encValid = false ∧ stateS3.busy = false ∧ stateS3.encValid = true ∧
      stateS3.w = some (expandedRegisters (keyBytes stateS3.key)) ∧ (0x2FC : BitVec 12).toNat ≤ 0x2FC :=
  ⟨rfl, rfl, rfl, rfl, rfl, rfl, by decide⟩

theorem witness_RdDrkRespondsRow :
    stateS2d.busy = true ∧ stateS3.busy = false ∧ stateS3.decValid = false ∧ stateS4.busy = false ∧ stateS4.decValid = true ∧
      stateS4.encValid = true ∧ stateS4.w = some (expandedRegisters (keyBytes stateS4.key)) ∧ (10 : Fin 11).val = 10 ∧
      (0x3B0 : BitVec 12).toNat ≤ 0x3FC := ⟨rfl, rfl, rfl, rfl, rfl, rfl, rfl, rfl, by decide⟩

theorem witness_MisalignedAndBadSizeRejected :
    (⟨true, 0, 0x101, 0⟩ : Txn).addr.toNat % 4 ≠ 0 ∧ (⟨false, 3, 0x018, 0⟩ : Txn).addr.toNat % 4 = 0 ∧ (⟨false, 3, 0x018, 0⟩ : Txn).size ≠ 2 := by
  decide

theorem witness_UnmappedRejected :
    (0x018 : BitVec 12).toNat % 4 = 0 ∧ 0x018 ≤ (0x018 : BitVec 12).toNat ∧ (0x018 : BitVec 12).toNat ≤ 0x0FC ∧
      (0x1B0 : BitVec 12).toNat % 4 = 0 ∧ (0x2FC : BitVec 12).toNat % 4 = 0 ∧ (0xFFC : BitVec 12).toNat % 4 = 0 := by decide

theorem witness_PortRkOutputs :
    (∃ t, exec (.portRk 10) stateS3 = .next t ∧ t.rkValid = true ∧ ∃ v, stateS3.w = some v) ∧
      (∃ t, exec (.portRk 10) stateS2 = .next t ∧ t.rkValid = false) ∧
      State.reset.portReq = { sel := false, idx := BitVec.ofNat 4 (0 : Fin 11).val } := ⟨⟨_, rfl, rfl, _, rfl⟩, ⟨_, rfl, rfl⟩, rfl⟩

theorem witness_PortDrkOutputs :
    (∃ t, exec (.portDrk 9) stateS4 = .next t ∧ t.rkValid = true ∧ ∃ v, stateS4.w = some v) ∧
      (∃ t, exec (.portDrk 9) stateS3 = .next t ∧ t.rkValid = false) ∧
      ({ stateS4 with portReq := ⟨true, 9⟩ } : State).portReq = { sel := true, idx := BitVec.ofNat 4 (9 : Fin 11).val } ∧
      stateS4.busy = false ∧ stateS4.keymask = 0xF ∧ (∃ t, exec .expandEnc stateS4 = .next t) ∧ (⟨true, 0⟩ : PortRequest).sel = true :=
  ⟨⟨_, rfl, rfl, _, rfl⟩, ⟨_, rfl, rfl⟩, rfl, rfl, rfl, ⟨_, rfl⟩, rfl⟩

theorem witness_PortBadIndexOutputs : 11 ≤ (11 : BitVec 4).toNat ∧ 11 ≤ (15 : BitVec 4).toNat := by decide

theorem witness_PortValidFallsAtOnce :
    stateS3.busy = false ∧ stateS3.keymask = 0xF ∧ (stateS3.withInbox [.reset]).inbox = .reset :: [] ∧
      ∃ t, step stateS2 = .next t ∧ portValid stateS2 ⟨false, 0⟩ = false ∧ portValid t ⟨false, 0⟩ = true :=
  ⟨rfl, rfl, rfl, _, rfl, rfl, rfl⟩

theorem witness_RejectionPriority :
    rejection ⟨true, 0, 0x101, 0⟩ stateS3 = some .align ∧ rejection ⟨false, 3, 0x018, 0⟩ stateS3 = some .size ∧
      rejection ⟨false, 2, 0x1B0, 0⟩ stateS3 = some .addr ∧ rejection ⟨true, 2, 0x1AC, 5⟩ stateS2 = some .access ∧
      rejection ⟨true, 2, 0x010, 0⟩ stateS2 = some .busy ∧ rejection ⟨false, 2, 0x300, 0⟩ stateS3 = some .notReady ∧
      rejection ⟨true, 2, 0x010, 7⟩ State.reset = some .cmd ∧ rejection ⟨true, 2, 0x010, 1⟩ State.reset = some .key ∧
      rejection ⟨true, 2, 0x014, 8⟩ stateS2 = none ∧ rejection ⟨false, 2, 0x3AC, 0⟩ stateS4 = none := by decide

theorem witness_RejectionChangesOnlyErrorRecord :
    (∃ t, exec (.wrExpw 0 0) stateS3 = .next t ∧ t.resp = some ⟨true, 0⟩ ∧ Instr.isTransaction (.wrExpw 0 0) = true ∧ stateS3.err = false) ∧
      ∃ t, exec .rdCmd stateS3e = .next t ∧ t.resp = some ⟨true, 0⟩ ∧ stateS3e.err = true := ⟨⟨_, rfl, rfl, rfl, rfl⟩, _, rfl, rfl, rfl⟩

theorem witness_EveryTransactionResponds :
    Instr.isTransaction .rdStatus = true ∧ Instr.isTransaction (.portRk 0) = false ∧ (⟨true, 2, 0x014, 0⟩ : Txn).we = true := by decide

theorem witness_ErrorClearedOnlyByStatusWriteOrReset :
    (∃ t, step (stateS3e.pushRecord (.txn64 0xA000001400000008)) = .next t ∧ stateS3e.err = true ∧ t.err = false) ∧
      (stateS3e.withInbox [.reset]).inbox = .reset :: [] ∧ (0x8 : Word).getLsbD 3 = true ∧
      rejection ⟨false, 2, 0x1B0, 0⟩ stateS3 = some .addr := ⟨⟨_, rfl, rfl, rfl⟩, rfl, rfl, by decide⟩

theorem witness_TransactionsIdempotent :
    (WellFormed (.wrKey 0 5) ∧ ¬(Instr.wrKey 0 5 = .expandEnc ∨ Instr.wrKey 0 5 = .expandDec) ∧ ∃ t, exec (.wrKey 0 5) stateS3 = .next t) ∧
      (WellFormed .expandEnc ∧ stateS2.busy = true ∧ ∃ t, exec .expandEnc stateS2 = .next t) ∧
      (WellFormed .expandDec ∧ State.reset.keymask ≠ 0xF ∧ ∃ t, exec .expandDec State.reset = .next t) ∧
      (∃ t, exec (decodeTxn ⟨false, 2, 0x014, 0⟩) stateS3 = .next t ∧ t.resp = some ⟨false, 0x000010f2⟩) ∧
      stateS1.busy = false ∧ stateS1.keymask = 0xF ∧ (∃ t, exec .expandEnc stateS1 = .next t) ∧ ∃ t, exec .expandDec stateS1 = .next t :=
  ⟨⟨by decide, by decide, _, rfl⟩, ⟨by decide, rfl, _, rfl⟩, ⟨by decide, by decide, _, rfl⟩, ⟨_, rfl, by decide⟩, rfl, rfl, ⟨_, rfl⟩, _, rfl⟩

theorem witness_EngineCompletion :
    (stateS2.withInbox [.clock]).inbox = .clock :: [] ∧ stateS2.busy = true ∧ stateS2.cnt ≤ 1 ∧
      (stateS1.withInbox [.clock]).inbox = .clock :: [] ∧ stateS1.busy = false := by decide

theorem witness_CompletionAfterLatency :
    stateS1.busy = false ∧ stateS1.keymask = 0xF ∧ ({ stateS2 with cnt := 3 } : State).busy = true ∧ 1 ≤ ({ stateS2 with cnt := 3 } : State).cnt := by
  decide

theorem witness_BusyEngineEventuallyCompletes : stateS2.busy = true ∧ stateS2.inbox = [] := by decide

theorem witness_WaitLoopEnds :
    stateS2.busy = true ∧ 1 ≤ stateS2.cnt ∧ 1 ≤ 1 ∧ stateS2.cnt ≤ 1 ∧ stateS3.busy = false ∧ stateS3.err = false ∧
      (if true then Config.latDec else Config.latEnc) ≤ Config.latDec ∧ (if false then Config.latDec else Config.latEnc) ≤ Config.latEnc :=
  ⟨rfl, by decide, by decide, by decide, rfl, rfl, by simp, by simp⟩

theorem witness_ResetEventValues : (stateS2.withInbox [.reset, .clock]).inbox = .reset :: [.clock] := rfl

theorem witness_StepRunsDecodedInstruction :
    (stateS1.pushRecord (.txn64 0x2000001400000000)).inbox = .record (.txn64 0x2000001400000000) :: [] ∧
      decode (.txn64 0x2000001400000000) = .ok .rdStatus ∧ (stateS1.withInbox [.clock]).inbox = .clock :: [] ∧
      (stateS1.withInbox [.reset]).inbox = .reset :: [] ∧ stateS1.inbox = [] ∧ decodeTableWord 8 0x1A = some (.portDrk 10) := by decide

theorem witness_StepKeepsInvariant : ∃ t, BlockInv stateS2 ∧ step stateS2 = .next t := ⟨_, witness_inv_stateS2, rfl⟩

theorem witness_MachineNeverStops : wellFormedInputs [.record (.txn64 0x2000001400000000), .clock] := by
  intro r hr
  simp only [List.mem_cons, Stimulus.record.injEq, reduceCtorEq, List.not_mem_nil, or_false] at hr
  subst hr
  exact ⟨.rdStatus, by decide⟩

theorem witness_OutputsAreExpansionOfKey :
    BlockInv stateS3 ∧ stateS3.encValid = true ∧ BlockInv stateS4 ∧ stateS4.encValid = true ∧ stateS4.decValid = true :=
  ⟨witness_inv_stateS3, rfl, witness_inv_stateS4, rfl, rfl⟩

theorem witness_OnlyCompletionValidatesOutputs :
    (∃ t, step stateS2 = .next t ∧ stateS2.encValid = false ∧ t.encValid = true) ∧
      ∃ t, step stateS2d = .next t ∧ stateS2d.decValid = false ∧ t.decValid = true := ⟨⟨_, rfl, rfl, rfl⟩, _, rfl, rfl, rfl⟩

theorem witness_KeyChangesOnlyByKeyWriteOrReset :
    (∃ t, step (State.reset.pushRecord (.txn64 0xA000000428AED2A6)) = .next t ∧ t.key ≠ State.reset.key ∧ t.keymask ≠ State.reset.keymask) ∧
      ∀ q, (State.reset.pushRecord (.txn64 0xA000000428AED2A6)).inbox ≠ .reset :: q :=
  ⟨⟨_, rfl, by decide, by decide⟩, fun _ h => by cases h⟩

theorem witness_OperationRunsToCompletion :
    ∃ t, step stateS2 = .next t ∧ stateS2.busy = true ∧ (∀ q, stateS2.inbox ≠ .reset :: q) ∧ t.busy = false :=
  ⟨_, rfl, rfl, fun _ h => (by cases h), rfl⟩

theorem witness_OutputsStayReadable :
    (WellFormed .rdStatus ∧ (∀ n v, Instr.rdStatus ≠ .wrKey n v) ∧ Instr.rdStatus ≠ .expandEnc ∧ Instr.rdStatus ≠ .expandDec ∧
        ∃ t, exec .rdStatus stateS3 = .next t) ∧
      (stateS2.busy = true ∧ (∃ t, exec (.wrKey 0 5) stateS2 = .next t) ∧ ∃ t, exec .expandEnc stateS2 = .next t) ∧
      (stateS3.busy = false ∧ (∃ t, step (stateS3.withInbox [.clock]) = .next t) ∧ ∀ q, (stateS3.withInbox [.clock]).inbox ≠ .reset :: q) ∧
      (∀ r q, (stateS3.withInbox [.clock]).inbox ≠ .record r :: q) ∧
      decode (.txn64 0x200002AC00000000) ≠ .ok .expandEnc ∧ ∃ t, step (stateS3.pushRecord (.txn64 0x200002AC00000000)) = .next t :=
  ⟨⟨by decide, fun _ _ h => (by cases h), by decide, by decide, _, rfl⟩, ⟨rfl, ⟨_, rfl⟩, _, rfl⟩,
    ⟨rfl, ⟨_, rfl⟩, fun _ h => (by cases h)⟩, fun _ _ h => (by cases h), by decide, _, rfl⟩

theorem witness_ReexpansionDeterministic :
    BlockInv stateS3 ∧ stateS3.encValid = true ∧ (∃ t, exec .expandEnc stateS3 = .next t) ∧ ∃ t, exec .expandDec stateS3 = .next t :=
  ⟨witness_inv_stateS3, rfl, ⟨_, rfl⟩, ⟨_, rfl⟩⟩

theorem witness_HiddenStateUnobservable :
    stateS1.encValid = false ∧ stateS1.decValid = false ∧ stateS3.busy = false ∧ (∃ t, step (stateS3.withInbox [.clock]) = .next t) ∧
      (({ stateS2 with cnt := 7 } : State).cnt ≤ 1 ↔ 3 ≤ 1) ∧ ∃ t, step { stateS2 with cnt := 7 } = .next t :=
  ⟨rfl, rfl, rfl, ⟨_, rfl⟩, by decide, _, rfl⟩

theorem witness_AssemblerForms : State.reset.busy = false := rfl

end Sys2Proof.Tests
end

/-! PROOF. Byte order in packed words and blocks (spec/00_scope.md R10, spec/10_state.md R21, spec/20_memory.md R51, R66). `pack32`
and `pack128` are the prefixes `packTo _ 3` and `packTo _ 15` of one recursion, so one induction finds every byte of both. -/

namespace Sys2Proof.Machine

open BitVec

/-- Bytes 0 to m of a vector, packed with byte 0 highest. -/
def packTo {N : Nat} (x : Vector Byte N) : (m : Nat) → m < N → BitVec (8 * (m + 1))
  | 0, h => x[0]
  | m + 1, h => packTo x m (by omega) ++ x[m + 1]

theorem packTo_zero {N : Nat} (x : Vector Byte N) (h : 0 < N) : packTo x 0 h = x[0] := rfl

theorem packTo_succ {N : Nat} (x : Vector Byte N) (m : Nat) (h : m + 1 < N) :
    packTo x (m + 1) h = packTo x m (by omega) ++ x[m + 1] := rfl

theorem pack32_eq_packTo (a : KeyWord) : pack32 a = packTo a 3 (by omega) := rfl

theorem pack128_eq_packTo (x : Block) : pack128 x = packTo x 15 (by omega) := rfl

/-- Each later byte moves byte n up by 8 bits, so among bytes 0 to m it starts at bit `8 * (m - n)`. -/
theorem extract_packTo {N : Nat} (x : Vector Byte N) (m n : Nat) (hm : m < N) (hn : n ≤ m) :
    (packTo x m hm).extractLsb' (8 * m - 8 * n) 8 = x[n] := by
  induction m with
  | zero =>
    obtain rfl : n = 0 := by omega
    rw [packTo_zero]
    exact extractLsb'_eq_self
  | succ m ih =>
    rw [packTo_succ]
    obtain rfl | hlt := Nat.eq_or_lt_of_le hn
    · rw [Nat.sub_self, extractLsb'_append_eq_of_add_le (by omega), extractLsb'_eq_self]
    · have hstart : 8 * (m + 1) - 8 * n - 8 = 8 * m - 8 * n := by omega
      rw [extractLsb'_append_eq_of_le (by omega), hstart]
      exact ih (by omega) (by omega)

/-- Byte j of a key word is in bits 31-8j:24-8j (R10). -/
theorem extract_pack32 (a : KeyWord) (j : Fin 4) : (pack32 a).extractLsb' (24 - 8 * j.val) 8 = a[j] := by
  rw [pack32_eq_packTo]
  exact extract_packTo a 3 j (by omega) (by omega)

/-- Byte n of a block is in bits 127-8n:120-8n (R66). -/
theorem extract_pack128 (x : Block) (n : Fin 16) : (pack128 x).extractLsb' (120 - 8 * n.val) 8 = x[n] := by
  rw [pack128_eq_packTo]
  exact extract_packTo x 15 n (by omega) (by omega)

@[simp] theorem keyRegisters_getElem (k : KeyBytes) (n : Nat) (h : n < 4) :
    (keyRegisters k)[n] = pack32 (blockRow k ⟨n, h⟩) := by simp [keyRegisters]

/-- Row n of the key is register n unpacked (R21). -/
@[simp] theorem blockRow_keyBytes (key : Vector Word 4) (n : Fin 4) : blockRow (keyBytes key) n = unpack32 key[n] := by
  apply Vector.ext
  intro c hc
  have hdiv : (4 * n.val + c) / 4 = n := by omega
  have hmod : (4 * n.val + c) % 4 = c := by omega
  simp [hdiv, hmod]

@[simp] theorem keyBytes_keyRegisters (k : KeyBytes) : keyBytes (keyRegisters k) = k := by
  apply Vector.ext
  intro n hn
  simp [Nat.div_add_mod]

@[simp] theorem keyRegisters_keyBytes (key : Vector Word 4) : keyRegisters (keyBytes key) = key := by
  apply Vector.ext
  intro n hn
  simp

end Sys2Proof.Machine

namespace Sys2Proof.Claims

open Sys2Proof.Machine

/-- Settles O15: `extract_packTo` gives both byte positions; the two key maps undo each other because `pack32` and `unpack32` do. -/
theorem packingOrder : Obligations.PackingOrder :=
  ⟨extract_pack32, extract_pack128, pack32_unpack32, unpack32_pack32, keyBytes_keyRegisters, keyRegisters_keyBytes⟩

end Sys2Proof.Claims

/-! PROOF. The invariant (spec/10_state.md R34, R35) holds at reset and every step keeps it: one lemma per kind of change to the
state, then one per operation, then `exec_cases` and `step_cases` put them together. -/

namespace Sys2Proof.Machine

/-! ### Changes to a part of the state -/

/-- The invariant reads nothing of the world outside the block. -/
theorem BlockInv.withOutside {s : State} (h : BlockInv s) (r : Option Response) (p : PortRequest) (q : List Stimulus) :
    BlockInv { s with resp := r, portReq := p, inbox := q } where
  outputs := h.outputs
  status := { h.status with }
  fields := { h.fields with }

/-- The error record may take any consistent value (R27, R28). -/
theorem BlockInv.withError {s : State} (h : BlockInv s) {e : Bool} {c : BitVec 4} (hec : e = false ↔ c = 0) (hc : c ≤ 8) :
    BlockInv { s with err := e, errcode := c } where
  outputs := h.outputs
  status := { h.status with err_code := hec }
  fields := { h.fields with errcode_legal := hc }

/-- CNT may take any positive value (R36). -/
theorem BlockInv.withCnt {s : State} (h : BlockInv s) {c : Nat} (hc : 1 ≤ c) : BlockInv { s with cnt := c } where
  outputs := h.outputs
  status := { h.status with }
  fields := { h.fields with busy_cnt := fun _ => hc }

/-- A busy block has no valid output, so a readable one is idle (R35). -/
theorem BlockInv.idle_of_encValid {s : State} (h : BlockInv s) (he : s.encValid = true) : s.busy = false := by
  by_contra hb
  obtain ⟨he', -⟩ := h.status.busy_clears (by simpa using hb)
  simp [he] at he'

/-! ### The operations -/

theorem one_le_commandLatency (op : BitVec 2) : 1 ≤ commandLatency op := by
  unfold commandLatency
  split
  · exact Nat.succ_pos Config.latEncLessOne
  · exact Nat.succ_pos Config.latDecLessOne

theorem legalCommand_iff (v : Word) : legalCommand v = true ↔ v = 1 ∨ v = 2 := by simp [legalCommand]

/-- OP as a legal command sets it (R24, R150). -/
theorem op_of_legalCommand {v : Word} (h : legalCommand v = true) : v.extractLsb' 0 2 = 1 ∨ v.extractLsb' 0 2 = 2 := by
  obtain rfl | rfl := (legalCommand_iff v).mp h
  · exact .inl (by decide)
  · exact .inr (by decide)

/-- The reset state meets the invariant. -/
theorem reset_blockInv : BlockInv State.reset where
  outputs := fun h => absurd h (by decide)
  status := ⟨by decide, by decide, by decide, by decide⟩
  fields := ⟨by decide, by decide, by decide, by decide, by decide, by decide, by decide⟩

theorem recordError_keeps_blockInv {s : State} (h : BlockInv s) (c : ErrCode) : BlockInv (recordError c s) := by
  unfold recordError
  split
  · exact h
  · exact h.withError (by cases c <;> decide) (by cases c <;> decide)

theorem raiseBusError_keeps_blockInv {s : State} (h : BlockInv s) (c : ErrCode) : BlockInv (raiseBusError c s) :=
  (recordError_keeps_blockInv h c).withOutside ..

theorem respondOk_keeps_blockInv {s : State} (h : BlockInv s) (v : Word) : BlockInv (respondOk v s) := h.withOutside ..

theorem silent_keeps_blockInv {s : State} (h : BlockInv s) : BlockInv s.silent := h.withOutside ..

theorem withInbox_keeps_blockInv {s : State} (h : BlockInv s) (q : List Stimulus) : BlockInv (s.withInbox q) := h.withOutside ..

theorem drivePort_keeps_blockInv {s : State} (h : BlockInv s) (p : PortRequest) : BlockInv (drivePort p s) := h.withOutside ..

theorem resetEvent_blockInv (s : State) : BlockInv (resetEvent s) := reset_blockInv.withOutside ..

theorem clearError_keeps_blockInv {s : State} (h : BlockInv s) : BlockInv (clearError s) :=
  h.withError (by decide) (by decide)

/-- With no output valid and W dropped, the invariant speaks of the engine and the error record alone. -/
theorem invalidate_blockInv {s : State} (herr : s.err = false ↔ s.errcode = 0) (hcode : s.errcode ≤ 8) (hop : s.op ≠ 3)
    (hbusy : s.busy = true → (s.op = 1 ∨ s.op = 2) ∧ s.keymask = 0xF ∧ 1 ≤ s.cnt) : BlockInv (invalidate s) where
  outputs := nofun
  status := { dec_enc := nofun, busy_clears := fun _ => ⟨rfl, rfl⟩, enc_key := nofun, err_code := herr }
  fields := {
    op_legal := hop
    errcode_legal := hcode
    busy_op := fun hb => (hbusy hb).1
    busy_key := fun hb => (hbusy hb).2.1
    busy_cnt := fun hb => (hbusy hb).2.2
    dec_op := nofun
    w_unspecified := fun _ => rfl }

/-- An accepted KEY write (R172): the engine is idle. -/
theorem storeKey_keeps_blockInv {s : State} (h : BlockInv s) (hb : s.busy = false) (n : Fin 4) (v : Word) :
    BlockInv (invalidate (storeKey n v s)) :=
  invalidate_blockInv h.status.err_code h.fields.errcode_legal h.fields.op_legal fun hb' => by simp [hb] at hb'

/-- An accepted command (R150): the key is complete and OP legal. -/
theorem startEngine_keeps_blockInv {s : State} (h : BlockInv s) (hk : keyComplete s = true) {v : Word} (hv : legalCommand v = true) :
    BlockInv (invalidate (startEngine (v.extractLsb' 0 2) s)) := by
  have hop := op_of_legalCommand hv
  refine invalidate_blockInv h.status.err_code h.fields.errcode_legal ?_ fun _ =>
    ⟨hop, by simpa [keyComplete] using hk, one_le_commandLatency _⟩
  obtain hop | hop := hop <;> simp [hop]

/-- The completion (R154) makes the outputs match the key. -/
theorem complete_keeps_blockInv {s : State} (h : BlockInv s) (hb : s.busy = true) : BlockInv (complete s) where
  outputs := fun _ => rfl
  status := {
    dec_enc := fun _ => rfl
    busy_clears := nofun
    enc_key := fun _ => h.fields.busy_key hb
    err_code := h.status.err_code }
  fields := {
    op_legal := h.fields.op_legal
    errcode_legal := h.fields.errcode_legal
    busy_op := nofun
    busy_key := nofun
    busy_cnt := nofun
    dec_op := eq_of_beq
    w_unspecified := nofun }

theorem engineTurn_keeps_blockInv {s : State} (h : BlockInv s) : BlockInv (engineTurn s) := by
  obtain ⟨-, ht⟩ | ⟨-, hc, ht⟩ | ⟨hb, -, ht⟩ := engineTurn_cases s
  · rw [ht]
    exact silent_keeps_blockInv h
  · rw [ht]
    exact (silent_keeps_blockInv h).withCnt (by omega)
  · rw [ht]
    exact complete_keeps_blockInv h hb

/-! ### An instruction, a step -/

theorem exec_keeps_blockInv {i : Instr} {s t : State} (h : BlockInv s) (ht : exec i s = .next t) : BlockInv t := by
  obtain ⟨c, he⟩ | ⟨v, he⟩ | ⟨n, v, -, hb, he⟩ | ⟨v, hv, -, -, hk, he⟩ | ⟨v, -, -, he⟩ | ⟨p, -, he⟩ := exec_cases i s <;>
    obtain rfl : _ = t := by simpa [he] using ht
  · exact raiseBusError_keeps_blockInv h c
  · exact respondOk_keeps_blockInv h v
  · exact respondOk_keeps_blockInv (storeKey_keeps_blockInv h hb n v) 0
  · exact respondOk_keeps_blockInv (startEngine_keeps_blockInv h hk hv) 0
  · exact respondOk_keeps_blockInv (clearError_keeps_blockInv h) 0
  · exact drivePort_keeps_blockInv h p

theorem step_keeps_blockInv {s t : State} (h : BlockInv s) (ht : step s = .next t) : BlockInv t := by
  obtain ⟨-, he⟩ | ⟨q, -, he⟩ | ⟨q, -, he⟩ | ⟨r, q, i, -, -, he⟩ | ⟨r, q, e, -, -, he⟩ := step_cases s <;> rw [he] at ht
  · cases ht
    exact engineTurn_keeps_blockInv h
  · cases ht
    exact engineTurn_keeps_blockInv (withInbox_keeps_blockInv h q)
  · cases ht
    exact resetEvent_blockInv _
  · exact exec_keeps_blockInv (withInbox_keeps_blockInv h q) ht
  · cases ht

end Sys2Proof.Machine

namespace Sys2Proof.Claims

open Sys2Proof.Machine

/-- Settles O50: every clause is a closed fact about the reset values of R39. -/
theorem invariantHoldsAtReset : Obligations.InvariantHoldsAtReset := reset_blockInv

/-- Settles O51: `step_cases` and `exec_cases` say what a step can do, and each of those operations keeps the invariant. -/
theorem stepKeepsInvariant : Obligations.StepKeepsInvariant := fun _ _ => step_keeps_blockInv

end Sys2Proof.Claims

/-! PROOF. What a readable output shows (spec/10_state.md R32 to R34): under the invariant the words that W holds are the expansion
of the key, so RK is its repack and DRK the decryption pass of that. -/

namespace Sys2Proof.Machine

/-- W holding the registers of an expansion, its words are that expansion (R31, R133). -/
theorem words_of_w {s : State} {k : KeyBytes} (hw : s.w = some (expandedRegisters k)) : s.words = expand k := by
  apply Vector.ext
  intro i hi
  simp [State.words, State.wReg, hw]

theorem rk_of_w {s : State} {k : KeyBytes} (hw : s.w = some (expandedRegisters k)) : s.rk = repack (expand k) := by
  rw [State.rk, words_of_w hw]

theorem drk_of_w {s : State} {k : KeyBytes} (hw : s.w = some (expandedRegisters k)) : s.drk = decPass (repack (expand k)) := by
  rw [State.drk, rk_of_w hw]

theorem wReg_of_w {s : State} {k : KeyBytes} (hw : s.w = some (expandedRegisters k)) (i : Fin 44) :
    s.wReg i = pack32 (expand k)[i] := by simp [State.wReg, hw]

/-- An idle block answers a read of a valid window. -/
theorem windowRead_of_readable {s : State} (hb : s.busy = false) {valid : Bool} (hv : valid = true) (v : Word) :
    windowRead valid v s = respondOk v s := by simp [windowRead, hb, hv]

theorem portIdx_toNat (k : Fin 11) : (BitVec.ofNat 4 k.val).toNat = k.val := by
  rw [BitVec.toNat_ofNat, Nat.mod_eq_of_lt (by omega)]

/-- The port is valid for every round key of the selected block once that block is valid (R184, R185). -/
theorem portValid_of_readable {s : State} (hb : s.busy = false) (sel : Bool) (hv : (if sel then s.decValid else s.encValid) = true)
    (k : Fin 11) : portValid s { sel := sel, idx := BitVec.ofNat 4 k.val } = true := by
  simp only [portValid, portIdx_toNat, hb, hv, Bool.not_false, Bool.true_and, decide_eq_true_eq]
  omega

/-- A valid port shows the selected block packed (R66). -/
theorem portData_of_readable {s : State} (hb : s.busy = false) (sel : Bool) (hv : (if sel then s.decValid else s.encValid) = true)
    (k : Fin 11) : portData s { sel := sel, idx := BitVec.ofNat 4 k.val } = pack128 (if sel then s.drk[k] else s.rk[k]) := by
  rw [portData, if_pos (portValid_of_readable hb sel hv k)]
  simp only [portIdx_toNat, k.isLt, dite_true]
  rfl

end Sys2Proof.Machine

namespace Sys2Proof.Claims

open Sys2Proof.Machine

/-- Settles O53: the invariant makes the block idle and W the expansion of the key; each read and the port then show a view of W. -/
theorem outputsAreExpansionOfKey : Obligations.OutputsAreExpansionOfKey := by
  intro s h he
  have hb := h.idle_of_encValid he
  have hw := h.outputs he
  refine ⟨fun i => ?_, fun k r => ?_, fun hd k r => ?_, fun k => ⟨portValid_of_readable hb false he k, ?_⟩, fun hd k => ?_⟩
  · rw [← wReg_of_w hw]
    exact congrArg _ (windowRead_of_readable hb he _)
  · rw [← rk_of_w hw]
    exact congrArg _ (windowRead_of_readable hb he _)
  · rw [← drk_of_w hw]
    exact congrArg _ (windowRead_of_readable hb hd _)
  · rw [← rk_of_w hw]
    exact portData_of_readable hb false he k
  · rw [← drk_of_w hw]
    exact portData_of_readable hb true hd k

end Sys2Proof.Claims

/-! PROOF. What a step can do to the key registers and to the valid bits (spec/10_state.md R22, R25, R26, R38), said once for an
instruction and once for a step. -/

namespace Sys2Proof.Machine

/-- No instruction makes an output valid (R25, R26). -/
theorem exec_valid {i : Instr} {s t : State} (ht : exec i s = .next t) :
    (t.encValid = true → s.encValid = true) ∧ (t.decValid = true → s.decValid = true) := by
  obtain ⟨c, he⟩ | ⟨v, he⟩ | ⟨n, v, -, -, he⟩ | ⟨v, -, -, -, -, he⟩ | ⟨v, -, -, he⟩ | ⟨p, -, he⟩ := exec_cases i s <;>
    obtain rfl : _ = t := by simpa [he] using ht
  all_goals simp

/-- An instruction keeps the key registers unless it is an accepted KEY write (R172). -/
theorem exec_key {i : Instr} {s t : State} (ht : exec i s = .next t) :
    (t.key = s.key ∧ t.keymask = s.keymask) ∨
    ∃ n v, i = .wrKey n v ∧ s.busy = false ∧ t.key = s.key.set n.val v ∧ t.keymask = keymaskWith s.keymask n := by
  obtain ⟨c, he⟩ | ⟨v, he⟩ | ⟨n, v, hi, hb, he⟩ | ⟨v, -, -, -, -, he⟩ | ⟨v, -, -, he⟩ | ⟨p, -, he⟩ := exec_cases i s <;>
    obtain rfl : _ = t := by simpa [he] using ht
  case inr.inr.inl => exact .inr ⟨n, v, hi, hb, rfl, rfl⟩
  all_goals exact .inl (by simp)

theorem engineTurn_key (s : State) : (engineTurn s).key = s.key ∧ (engineTurn s).keymask = s.keymask := by
  obtain ⟨-, ht⟩ | ⟨-, -, ht⟩ | ⟨-, -, ht⟩ := engineTurn_cases s <;> simp [ht]

/-- A turn of the engine that makes an output valid is the completion (R154). -/
theorem engineTurn_valid {s : State}
    (h : (s.encValid = false ∧ (engineTurn s).encValid = true) ∨ (s.decValid = false ∧ (engineTurn s).decValid = true)) :
    s.busy = true ∧ s.cnt ≤ 1 ∧ engineTurn s = complete s := by
  obtain ⟨-, ht⟩ | ⟨-, -, ht⟩ | ⟨hb, hc, ht⟩ := engineTurn_cases s
  · simp [ht] at h
  · simp [ht] at h
  · exact ⟨hb, hc, ht⟩

/-- Setting a KEYMASK bit clears none (R22). -/
theorem keymaskWith_keeps {m : BitVec 4} {b : Nat} (n : Fin 4) (h : m.getLsbD b = true) : (keymaskWith m n).getLsbD b = true := by
  simp [keymaskWith, h]

/-- A step that is no reset keeps the key registers unless it runs an accepted KEY write. -/
theorem step_key {s t : State} (ht : step s = .next t) (hr : ∀ q, s.inbox ≠ .reset :: q) :
    (t.key = s.key ∧ t.keymask = s.keymask) ∨
    ∃ r q n v, s.inbox = .record r :: q ∧ decode r = .ok (.wrKey n v) ∧ s.busy = false ∧ t.key = s.key.set n.val v ∧
      t.keymask = keymaskWith s.keymask n := by
  obtain ⟨-, he⟩ | ⟨q, -, he⟩ | ⟨q, hq, -⟩ | ⟨r, q, i, hq, hd, he⟩ | ⟨r, q, e, -, -, he⟩ := step_cases s
  · cases he.symm.trans ht
    exact .inl (engineTurn_key s)
  · cases he.symm.trans ht
    exact .inl (engineTurn_key (s.withInbox q))
  · exact absurd hq (hr q)
  · obtain hk | ⟨n, v, rfl, hb, hk, hm⟩ := exec_key (he.symm.trans ht)
    · exact .inl hk
    · exact .inr ⟨r, q, n, v, hq, hd, hb, hk, hm⟩
  · cases he.symm.trans ht

/-- A step that makes an output valid completes a busy engine, at a clock cycle or with nothing left in the inbox. -/
theorem step_valid {s t : State} (ht : step s = .next t)
    (h : (s.encValid = false ∧ t.encValid = true) ∨ (s.decValid = false ∧ t.decValid = true)) :
    s.busy = true ∧ s.cnt ≤ 1 ∧
      ((s.inbox = [] ∧ t = complete s) ∨ ∃ q, s.inbox = .clock :: q ∧ t = complete (s.withInbox q)) := by
  obtain ⟨hq, he⟩ | ⟨q, hq, he⟩ | ⟨q, -, he⟩ | ⟨r, q, i, -, -, he⟩ | ⟨r, q, e, -, -, he⟩ := step_cases s
  · cases he.symm.trans ht
    obtain ⟨hb, hc, hcomplete⟩ := engineTurn_valid h
    exact ⟨hb, hc, .inl ⟨hq, hcomplete⟩⟩
  · cases he.symm.trans ht
    obtain ⟨hb, hc, hcomplete⟩ := engineTurn_valid (s := s.withInbox q) h
    exact ⟨hb, hc, .inr ⟨q, hq, hcomplete⟩⟩
  · cases he.symm.trans ht
    simp at h
  · obtain ⟨henc, hdec⟩ := exec_valid (he.symm.trans ht)
    obtain ⟨hs, hv⟩ | ⟨hs, hv⟩ := h
    · exact absurd (henc hv) (by simp [hs])
    · exact absurd (hdec hv) (by simp [hs])
  · cases he.symm.trans ht

end Sys2Proof.Machine

namespace Sys2Proof.Claims

open Sys2Proof.Machine

/-- Settles O54: the step is the completion (`step_valid`), which says what W, KEY and DEC_VALID become. -/
theorem onlyCompletionValidatesOutputs : Obligations.OnlyCompletionValidatesOutputs := by
  intro s t ht h
  obtain ⟨hb, hc, ⟨hq, rfl⟩ | ⟨q, hq, rfl⟩⟩ := step_valid ht h
  · exact ⟨hb, hc, .inl hq, rfl, rfl, rfl⟩
  · exact ⟨hb, hc, .inr ⟨q, hq⟩, rfl, rfl, rfl⟩

/-- Settles O55: a step that is no reset keeps both registers or is the accepted KEY write (`step_key`), which sets a mask bit. -/
theorem keyChangesOnlyByKeyWriteOrReset : Obligations.KeyChangesOnlyByKeyWriteOrReset := by
  intro s t ht hr
  obtain ⟨hk, hm⟩ | ⟨r, q, n, v, hq, hd, hb, hk, hm⟩ := step_key ht hr
  · exact ⟨fun b hset => hm ▸ hset, fun hne => by simp [hk, hm] at hne⟩
  · exact ⟨fun b hset => hm ▸ keymaskWith_keeps n hset, fun _ => ⟨hb, r, q, n, v, hq, hd, hk⟩⟩

end Sys2Proof.Claims

/-! PROOF. Reset (spec/70_reset_and_hazards.md R230, R232): the block is idle with no output valid, and clock cycles leave it so. -/

namespace Sys2Proof.Machine

theorem engineTurn_of_idle {s : State} (hb : s.busy = false) : engineTurn s = s.silent := by simp [engineTurn, hb]

/-- Clock cycles change neither BUSY nor a valid bit of an idle block (R217). -/
theorem run_clocks_of_idle {s u : State} (hb : s.busy = false) (n : Nat)
    (h : Sys2Proof.core.run n (s.withInbox (List.replicate n .clock)) = .next u) :
    u.busy = false ∧ u.encValid = s.encValid ∧ u.decValid = s.decValid := by
  induction n generalizing s with
  | zero =>
    cases h
    exact ⟨hb, rfl, rfl⟩
  | succ n ih =>
    rw [List.replicate_succ, run_succ_of_step n (step_of_clock s _), engineTurn_withInbox, engineTurn_of_idle hb] at h
    exact ih (s := s.silent) hb h

/-- With neither block valid the port shows nothing, whatever is driven (R184, R185). -/
theorem port_of_invalid {s : State} (he : s.encValid = false) (hd : s.decValid = false) (p : PortRequest) :
    portValid s p = false ∧ portData s p = 0 := by
  have hv : portValid s p = false := by simp [portValid, he, hd]
  exact ⟨hv, by simp [portData, hv]⟩

theorem statusWord_resetEvent (s : State) : statusWord (resetEvent s) = 0 := by simp [statusWord]

end Sys2Proof.Machine

namespace Sys2Proof.Claims

open Sys2Proof.Machine

/-- Settles O47: the values are those of `resetEvent`, and an idle block stays idle (`run_clocks_of_idle`). -/
theorem resetEventValues : Obligations.ResetEventValues := by
  intro s q hq
  have hstep : step s = .next (resetEvent (s.withInbox q)) := by simp [step, hq]
  obtain ⟨hvalid, hdata⟩ := port_of_invalid (s := resetEvent (s.withInbox q)) rfl rfl s.portReq
  exact ⟨_, hstep, rfl, rfl, rfl, rfl, rfl, rfl, rfl, rfl, statusWord_resetEvent _, hvalid, hdata, rfl,
    fun n _ hrun => run_clocks_of_idle rfl n hrun⟩

end Sys2Proof.Claims

/-! PROOF. What nothing observes (spec/10_state.md R31, R36): `HiddenEq` relates two states that differ in CNT, and in W where it is
unspecified. Every operation, instruction and step keeps it, for W as long as an output that shows W is not valid. -/

namespace Sys2Proof.Machine

/-- `u` differs from `s` in W and CNT alone, and, where `sameW` is asked for, in CNT alone. -/
def HiddenEq (sameW : Prop) (s u : State) : Prop := ∃ x c, u = { s with w := x, cnt := c } ∧ (sameW → x = s.w)

/-- The views of W read nothing else of the state (R31). -/
theorem wReg_congr {s u : State} (hw : u.w = s.w) (i : Fin 44) : u.wReg i = s.wReg i := by simp [State.wReg, hw]

theorem rk_congr {s u : State} (hw : u.w = s.w) : u.rk = s.rk := by simp [State.rk, State.words, wReg_congr hw]

section

variable {sameW : Prop} {s u : State}

/-! ### What related states share -/

theorem HiddenEq.observable_eq (h : HiddenEq sameW s u) : s.observable = u.observable := by
  obtain ⟨x, c, rfl, -⟩ := h
  rfl

theorem HiddenEq.w_eq (h : HiddenEq sameW s u) (hsame : sameW) : u.w = s.w := by
  obtain ⟨x, c, rfl, hx⟩ := h
  exact hx hsame

/-- Whatever is a function of the observable state is the same in both. -/
theorem HiddenEq.congr {α : Type} (h : HiddenEq sameW s u) (f : State → α) (hf : ∀ r : State, f r.observable = f r) : f u = f s := by
  rw [← hf u, ← hf s, h.observable_eq]

theorem HiddenEq.key_eq (h : HiddenEq sameW s u) : u.key = s.key := h.congr State.key fun _ => rfl

theorem HiddenEq.busy_eq (h : HiddenEq sameW s u) : u.busy = s.busy := h.congr State.busy fun _ => rfl

theorem HiddenEq.encValid_eq (h : HiddenEq sameW s u) : u.encValid = s.encValid := h.congr State.encValid fun _ => rfl

theorem HiddenEq.decValid_eq (h : HiddenEq sameW s u) : u.decValid = s.decValid := h.congr State.decValid fun _ => rfl

theorem HiddenEq.inbox_eq (h : HiddenEq sameW s u) : u.inbox = s.inbox := h.congr State.inbox fun _ => rfl

theorem HiddenEq.keyComplete_eq (h : HiddenEq sameW s u) : keyComplete u = keyComplete s :=
  h.congr keyComplete fun _ => rfl

theorem HiddenEq.statusWord_eq (h : HiddenEq sameW s u) : statusWord u = statusWord s :=
  h.congr statusWord fun _ => rfl

/-- States that differ in CNT alone. -/
theorem HiddenEq.eq_but_cnt (h : HiddenEq True s u) : { s with cnt := 0 } = { u with cnt := 0 } := by
  obtain ⟨x, c, rfl, hx⟩ := h
  rw [hx trivial]

/-- The port never shows CNT. -/
theorem HiddenEq.port_eq (h : HiddenEq True s u) (p : PortRequest) : portValid s p = portValid u p ∧ portData s p = portData u p :=
  port_congr (h.w_eq trivial).symm h.busy_eq.symm h.encValid_eq.symm h.decValid_eq.symm p

/-! ### The operations keep it -/

theorem HiddenEq.withInbox (h : HiddenEq sameW s u) (q : List Stimulus) : HiddenEq sameW (s.withInbox q) (u.withInbox q) := by
  obtain ⟨x, c, rfl, hx⟩ := h
  exact ⟨x, c, rfl, hx⟩

theorem respondOk_hiddenEq (h : HiddenEq sameW s u) (v : Word) : HiddenEq sameW (respondOk v s) (respondOk v u) := by
  obtain ⟨x, c, rfl, hx⟩ := h
  exact ⟨x, c, rfl, hx⟩

theorem raiseBusError_hiddenEq (h : HiddenEq sameW s u) (e : ErrCode) : HiddenEq sameW (raiseBusError e s) (raiseBusError e u) := by
  obtain ⟨x, c, rfl, hx⟩ := h
  refine ⟨x, c, ?_, by simpa using hx⟩
  cases herr : s.err <;> simp [raiseBusError, recordError, herr]

theorem clearError_hiddenEq (h : HiddenEq sameW s u) : HiddenEq sameW (clearError s) (clearError u) := by
  obtain ⟨x, c, rfl, hx⟩ := h
  exact ⟨x, c, rfl, hx⟩

theorem drivePort_hiddenEq (h : HiddenEq sameW s u) (p : PortRequest) : HiddenEq sameW (drivePort p s) (drivePort p u) := by
  obtain ⟨x, c, rfl, hx⟩ := h
  exact ⟨x, c, rfl, hx⟩

/-- An accepted KEY write drops W, so what it held is gone. -/
theorem storeKey_hiddenEq (h : HiddenEq sameW s u) (n : Fin 4) (v : Word) :
    HiddenEq sameW (invalidate (storeKey n v s)) (invalidate (storeKey n v u)) := by
  obtain ⟨x, c, rfl, -⟩ := h
  exact ⟨none, c, rfl, fun _ => rfl⟩

/-- An accepted command drops W and loads CNT. -/
theorem startEngine_hiddenEq (h : HiddenEq sameW s u) (op : BitVec 2) :
    HiddenEq sameW (invalidate (startEngine op s)) (invalidate (startEngine op u)) := by
  obtain ⟨x, c, rfl, -⟩ := h
  exact ⟨none, commandLatency op, rfl, fun _ => rfl⟩

theorem keyWrite_hiddenEq (h : HiddenEq sameW s u) (n : Fin 4) (v : Word) : HiddenEq sameW (keyWrite n v s) (keyWrite n v u) := by
  unfold keyWrite
  rw [h.busy_eq]
  split
  · exact raiseBusError_hiddenEq h .busy
  · exact respondOk_hiddenEq (storeKey_hiddenEq h n v) 0

theorem cmdWrite_hiddenEq (h : HiddenEq sameW s u) (v : Word) : HiddenEq sameW (cmdWrite v s) (cmdWrite v u) := by
  unfold cmdWrite
  rw [h.busy_eq, h.keyComplete_eq]
  split_ifs
  · exact raiseBusError_hiddenEq h .busy
  · exact raiseBusError_hiddenEq h .cmd
  · exact raiseBusError_hiddenEq h .key
  · exact respondOk_hiddenEq (startEngine_hiddenEq h _) 0

/-- A window read shows its value only when the window is valid. -/
theorem windowRead_hiddenEq (h : HiddenEq sameW s u) {valid valid' : Bool} {v v' : Word} (hvalid : valid' = valid)
    (hv : valid = true → v' = v) : HiddenEq sameW (windowRead valid v s) (windowRead valid' v' u) := by
  unfold windowRead
  rw [h.busy_eq, hvalid]
  split_ifs with _ hready
  · exact raiseBusError_hiddenEq h .busy
  · exact raiseBusError_hiddenEq h .notReady
  · rw [hv (by simpa using hready)]
    exact respondOk_hiddenEq h v

/-- The completion gives W and CNT values of its own. -/
theorem complete_hiddenEq (h : HiddenEq sameW s u) : HiddenEq sameW (complete s) (complete u) := by
  obtain ⟨x, c, rfl, -⟩ := h
  exact ⟨_, 0, rfl, fun _ => rfl⟩

theorem silent_hiddenEq (h : HiddenEq sameW s u) : HiddenEq sameW s.silent u.silent := by
  obtain ⟨x, c, rfl, hx⟩ := h
  exact ⟨x, c, rfl, hx⟩

theorem withCnt_hiddenEq (h : HiddenEq sameW s u) (m n : Nat) : HiddenEq sameW { s with cnt := m } { u with cnt := n } := by
  obtain ⟨x, c, rfl, hx⟩ := h
  exact ⟨x, n, rfl, hx⟩

/-- The engine's turn reads of CNT only whether it has expired, and that only while busy. -/
theorem engineTurn_hiddenEq (h : HiddenEq sameW s u) (hc : s.busy = false ∨ (s.cnt ≤ 1 ↔ u.cnt ≤ 1)) :
    HiddenEq sameW (engineTurn s) (engineTurn u) := by
  unfold engineTurn
  rw [h.busy_eq]
  cases hb : s.busy
  · exact silent_hiddenEq h
  · have hexpired : s.cnt ≤ 1 ↔ u.cnt ≤ 1 := hc.resolve_left (by simp [hb])
    simp only [hexpired, if_true]
    split
    · exact complete_hiddenEq h
    · exact withCnt_hiddenEq (silent_hiddenEq h) _ _

theorem resetEvent_hiddenEq (h : HiddenEq sameW s u) : HiddenEq sameW (resetEvent s) (resetEvent u) := by
  obtain ⟨x, c, rfl, -⟩ := h
  exact ⟨none, 0, rfl, fun _ => rfl⟩

/-! ### An instruction, a step -/

/-- An instruction keeps it: it reads W only through a window whose output is valid, and CNT not at all. -/
theorem exec_hiddenEq (i : Instr) (h : HiddenEq sameW s u) (hw : s.encValid = true ∨ s.decValid = true → u.w = s.w) :
    ∃ t t', exec i s = .next t ∧ exec i u = .next t' ∧ HiddenEq sameW t t' := by
  cases i with
  | anyMisaligned t => exact ⟨_, _, rfl, rfl, raiseBusError_hiddenEq h .align⟩
  | anyBadsize t => exact ⟨_, _, rfl, rfl, raiseBusError_hiddenEq h .size⟩
  | rdKey n =>
    refine ⟨_, _, rfl, rfl, ?_⟩
    rw [h.key_eq]
    exact respondOk_hiddenEq h _
  | wrKey n data => exact ⟨_, _, rfl, rfl, keyWrite_hiddenEq h n data⟩
  | rdCmd => exact ⟨_, _, rfl, rfl, raiseBusError_hiddenEq h .access⟩
  | expandEnc => exact ⟨_, _, rfl, rfl, cmdWrite_hiddenEq h 1⟩
  | expandDec => exact ⟨_, _, rfl, rfl, cmdWrite_hiddenEq h 2⟩
  | cmdIllegal v => exact ⟨_, _, rfl, rfl, cmdWrite_hiddenEq h v⟩
  | rdStatus =>
    refine ⟨_, _, rfl, rfl, ?_⟩
    rw [h.statusWord_eq]
    exact respondOk_hiddenEq h _
  | wrStatus v =>
    refine ⟨_, _, rfl, rfl, respondOk_hiddenEq ?_ 0⟩
    split
    · exact clearError_hiddenEq h
    · exact h
  | rdExpw n =>
    refine ⟨_, _, rfl, rfl, windowRead_hiddenEq h h.encValid_eq fun hv => ?_⟩
    rw [wReg_congr (hw (.inl hv))]
  | wrExpw n v => exact ⟨_, _, rfl, rfl, raiseBusError_hiddenEq h .access⟩
  | rdRk k r =>
    refine ⟨_, _, rfl, rfl, windowRead_hiddenEq h h.encValid_eq fun hv => ?_⟩
    rw [rk_congr (hw (.inl hv))]
  | wrRk k r v => exact ⟨_, _, rfl, rfl, raiseBusError_hiddenEq h .access⟩
  | rdDrk k r =>
    refine ⟨_, _, rfl, rfl, windowRead_hiddenEq h h.decValid_eq fun hv => ?_⟩
    rw [State.drk, State.drk, rk_congr (hw (.inr hv))]
  | wrDrk k r v => exact ⟨_, _, rfl, rfl, raiseBusError_hiddenEq h .access⟩
  | rdUnmapped a => exact ⟨_, _, rfl, rfl, raiseBusError_hiddenEq h .addr⟩
  | wrUnmapped a v => exact ⟨_, _, rfl, rfl, raiseBusError_hiddenEq h .addr⟩
  | portRk k => exact ⟨_, _, rfl, rfl, drivePort_hiddenEq h _⟩
  | portDrk k => exact ⟨_, _, rfl, rfl, drivePort_hiddenEq h _⟩
  | portBadidx sel idx => exact ⟨_, _, rfl, rfl, drivePort_hiddenEq h _⟩

/-- A step keeps it between states that differ in CNT alone, when CNT has expired in both or in neither. -/
theorem step_hiddenEq {t : State} (h : HiddenEq True s u) (hc : s.busy = false ∨ (s.cnt ≤ 1 ↔ u.cnt ≤ 1)) (ht : step s = .next t) :
    ∃ t', step u = .next t' ∧ HiddenEq True t t' := by
  obtain ⟨hq, he⟩ | ⟨q, hq, he⟩ | ⟨q, hq, he⟩ | ⟨r, q, i, hq, hd, he⟩ | ⟨r, q, e, -, -, he⟩ := step_cases s
  · cases he.symm.trans ht
    exact ⟨engineTurn u, by simp [step, h.inbox_eq, hq], engineTurn_hiddenEq h hc⟩
  · cases he.symm.trans ht
    exact ⟨engineTurn (u.withInbox q), by simp [step, h.inbox_eq, hq], engineTurn_hiddenEq (h.withInbox q) hc⟩
  · cases he.symm.trans ht
    exact ⟨resetEvent (u.withInbox q), by simp [step, h.inbox_eq, hq], resetEvent_hiddenEq (h.withInbox q)⟩
  · obtain ⟨t₁, t', ht₁, ht', heq⟩ := exec_hiddenEq i (h.withInbox q) fun _ => h.w_eq trivial
    cases ht₁.symm.trans (he.symm.trans ht)
    exact ⟨t', by simp [step, h.inbox_eq, hq, hd, ht'], heq⟩
  · cases he.symm.trans ht

end

end Sys2Proof.Machine

namespace Sys2Proof.Claims

open Sys2Proof.Machine

/-- Settles O59: the two runs stay related by `HiddenEq`. Where W differs no output is valid, before or after, and the port shows
nothing in either run; where CNT alone differs the port reads the same W. -/
theorem hiddenStateUnobservable : Obligations.HiddenStateUnobservable := by
  refine ⟨fun i s x c he hd => ?_, fun i s c => ?_, fun s t c hc ht => ?_⟩
  · have hrel : HiddenEq False s { s with w := x, cnt := c } := ⟨x, c, rfl, nofun⟩
    obtain ⟨t, u, ht, hu, heq⟩ := exec_hiddenEq i hrel (by simp [he, hd])
    have hte : t.encValid = false := by simpa [he] using (exec_valid ht).1
    have htd : t.decValid = false := by simpa [hd] using (exec_valid ht).2
    refine ⟨t, u, ht, hu, heq.observable_eq, fun p => ?_⟩
    obtain ⟨hv, hdata⟩ := port_of_invalid hte htd p
    obtain ⟨hv', hdata'⟩ := port_of_invalid (heq.encValid_eq.trans hte) (heq.decValid_eq.trans htd) p
    exact ⟨hv.trans hv'.symm, hdata.trans hdata'.symm⟩
  · have hrel : HiddenEq True s { s with cnt := c } := ⟨s.w, c, rfl, fun _ => rfl⟩
    obtain ⟨t, u, ht, hu, heq⟩ := exec_hiddenEq i hrel fun _ => rfl
    exact ⟨t, u, ht, hu, heq.eq_but_cnt, heq.port_eq⟩
  · have hrel : HiddenEq True s { s with cnt := c } := ⟨s.w, c, rfl, fun _ => rfl⟩
    obtain ⟨u, hu, heq⟩ := step_hiddenEq hrel hc ht
    exact ⟨u, hu, heq.eq_but_cnt, heq.port_eq⟩

end Sys2Proof.Claims

/-! PROOF. The address map (spec/20_memory.md R52, R53) and the order of the decode (spec/30_encoding.md R82): `regAt` is the inverse
of `Target.offset`, and an offset it does not know, a misaligned offset and a wrong size each decode to a rejection. -/

namespace Sys2Proof

/-! ### The offsets as numbers (R52) -/

@[simp] theorem Target.offset_key_toNat (n : Fin 4) : (Target.key n).offset.toNat = 4 * n.val := by
  simp only [Target.offset, BitVec.toNat_ofNat]
  omega

@[simp] theorem Target.offset_cmd_toNat : Target.cmd.offset.toNat = 0x010 := rfl

@[simp] theorem Target.offset_status_toNat : Target.status.offset.toNat = 0x014 := rfl

@[simp] theorem Target.offset_expw_toNat (i : Fin 44) : (Target.expw i).offset.toNat = 0x100 + 4 * i.val := by
  simp only [Target.offset, BitVec.toNat_ofNat]
  omega

@[simp] theorem Target.offset_rk_toNat (k : Fin 11) (r : Fin 4) :
    (Target.rk k r).offset.toNat = 0x200 + 16 * k.val + 4 * r.val := by
  simp only [Target.offset, BitVec.toNat_ofNat]
  omega

@[simp] theorem Target.offset_drk_toNat (k : Fin 11) (r : Fin 4) :
    (Target.drk k r).offset.toNat = 0x300 + 16 * k.val + 4 * r.val := by
  simp only [Target.offset, BitVec.toNat_ofNat]
  omega

/-! ### The lookup and the offsets are inverse -/

/-- What a lookup finds has the offset looked up, range by range of the map. -/
theorem offset_of_regAt {a : BitVec 12} {t : Target} (h : regAt a = some t) : t.offset = a := by
  apply BitVec.eq_of_toNat_eq
  simp only [regAt, roundKeyIndex] at h
  split_ifs at h <;> obtain rfl := Option.some.inj h
  all_goals
    simp only [Target.offset_key_toNat, Target.offset_cmd_toNat, Target.offset_status_toNat, Target.offset_expw_toNat,
      Target.offset_rk_toNat, Target.offset_drk_toNat]
    omega

/-- The offset of a register misses the ranges that the lookup tries before its own. -/
theorem regAt_offset (t : Target) : regAt t.offset = some t := by
  cases t with
  | key n =>
    have hlt : 4 * n.val < 0x010 := by omega
    simp [regAt, hlt]
  | cmd => rfl
  | status => rfl
  | expw i =>
    simp only [regAt, Target.offset_expw_toNat]
    rw [if_neg (by omega), dif_neg (by omega), if_neg (by omega), if_neg (by omega), dif_pos (by omega)]
    congr 2
    exact Fin.ext (by dsimp; omega)
  | rk k r =>
    simp only [regAt, roundKeyIndex, Target.offset_rk_toNat]
    rw [if_neg (by omega), dif_neg (by omega), if_neg (by omega), if_neg (by omega), dif_neg (by omega), dif_pos (by omega)]
    congr 2 <;> exact Fin.ext (by dsimp; omega)
  | drk k r =>
    simp only [regAt, roundKeyIndex, Target.offset_drk_toNat]
    rw [if_neg (by omega), dif_neg (by omega), if_neg (by omega), if_neg (by omega), dif_neg (by omega), dif_neg (by omega),
      dif_pos (by omega)]
    congr 2 <;> exact Fin.ext (by dsimp; omega)

/-! ### The order of the decode (R82) -/

/-- ADDR[1:0] is the remainder of ADDR by 4 (R54). -/
theorem lowBits_eq_zero_iff (a : BitVec 12) : a.extractLsb' 0 2 = 0 ↔ a.toNat % 4 = 0 := by
  simp [← BitVec.toNat_inj]

theorem decodeTxn_of_misaligned {t : Txn} (h : t.addr.toNat % 4 ≠ 0) : decodeTxn t = .anyMisaligned t :=
  if_pos (mt (lowBits_eq_zero_iff t.addr).mp h)

theorem decodeTxn_of_badsize {t : Txn} (h : t.addr.toNat % 4 = 0) (hs : t.size ≠ 2) : decodeTxn t = .anyBadsize t := by
  rw [decodeTxn, if_neg (not_not.mpr ((lowBits_eq_zero_iff t.addr).mpr h)), if_pos hs]

theorem decodeTxn_of_unmapped {t : Txn} (h : t.addr.toNat % 4 = 0) (hs : t.size = 2) (hr : regAt t.addr = none) :
    decodeTxn t = if t.we then .wrUnmapped t.addr t.wdata else .rdUnmapped t.addr := by
  simp [decodeTxn, (lowBits_eq_zero_iff t.addr).mpr h, hs, hr]

end Sys2Proof

namespace Sys2Proof.Claims

open Sys2Proof.Machine

/-- The model's rejection is the one the statements write out (R201, R202). -/
theorem raiseBusError_eq_rejectedWith (c : ErrCode) (s : State) : raiseBusError c s = rejectedWith (errorCode c) s := by
  cases h : s.err <;> simp [raiseBusError, recordError, rejectedWith, h]

/-- An unmapped transaction of either kind is rejected with ERR_ADDR (R53, R183). -/
theorem exec_of_unmapped {t : Txn} (h : t.addr.toNat % 4 = 0) (hs : t.size = 2) (hr : regAt t.addr = none) (s : State) :
    exec (decodeTxn t) s = .next (rejectedWith 3 s) := by
  have hraise : exec (decodeTxn t) s = .next (raiseBusError .addr s) := by
    rw [decodeTxn_of_unmapped h hs hr]
    cases t.we <;> rfl
  rw [hraise, raiseBusError_eq_rejectedWith, errorCode]

/-- Settles O5: the offsets are pinned as numbers, the lookup is their inverse, and a lookup that finds nothing decodes to an
unmapped access. -/
theorem mappedOffsets : Obligations.MappedOffsets :=
  ⟨Target.offset_key_toNat, rfl, rfl, Target.offset_expw_toNat, Target.offset_rk_toNat, Target.offset_drk_toNat, regAt_offset,
    fun _ _ => offset_of_regAt, fun _ s h hs hr => exec_of_unmapped h hs hr s⟩

/-- Settles O32: the decode tests ADDR[1:0] first and SIZE second (R82), and each test has its own rejection. -/
theorem misalignedAndBadSizeRejected : Obligations.MisalignedAndBadSizeRejected := fun _ s =>
  ⟨decodeTxn_of_misaligned, congrArg _ (raiseBusError_eq_rejectedWith .align s), decodeTxn_of_badsize,
    congrArg _ (raiseBusError_eq_rejectedWith .size s)⟩

end Sys2Proof.Claims

/-! PROOF. Idempotence (spec/20_memory.md R57, R58): each operation of the state done twice is the operation done once, and so is each
instruction but an accepted command. A read that is answered changes nothing but the response. -/

namespace Sys2Proof.Machine

/-! ### The operations -/

theorem keymaskWith_idem (m : BitVec 4) (n : Fin 4) : keymaskWith (keymaskWith m n) n = keymaskWith m n := by
  rw [keymaskWith, keymaskWith, BitVec.or_assoc, BitVec.or_self]

theorem storeKey_idem (n : Fin 4) (v : Word) (s : State) : storeKey n v (storeKey n v s) = storeKey n v s := by
  simp [storeKey, keymaskWith_idem]

/-- A KEY write is rejected both times or stores the same word both times. -/
theorem keyWrite_idem (n : Fin 4) (v : Word) (s : State) : keyWrite n v (keyWrite n v s) = keyWrite n v s := by
  obtain ⟨hb, h⟩ | ⟨hb, h⟩ := keyWrite_cases n v s <;> rw [h]
  · simp [keyWrite, hb, raiseBusError_idem]
  · have hagain : keyWrite n v (respondOk 0 (invalidate (storeKey n v s))) = respondOk 0 (invalidate (storeKey n v (storeKey n v s))) :=
      if_neg (by simp [hb])
    rw [hagain, storeKey_idem]

/-- A window read changes nothing that decides its answer, so the second answers as the first. -/
theorem windowRead_idem (valid : Bool) (v : Word) (s : State) : windowRead valid v (windowRead valid v s) = windowRead valid v s := by
  obtain ⟨hb, h⟩ | ⟨hb, hv, h⟩ | ⟨hb, hv, h⟩ := windowRead_cases valid v s <;> rw [h]
  · simp [windowRead, hb, raiseBusError_idem]
  · simp [windowRead, hb, hv, raiseBusError_idem]
  · exact windowRead_of_readable (s := respondOk v s) hb hv v

/-- A window read keeps what another one looks at. -/
theorem windowRead_keeps (valid : Bool) (v : Word) (s : State) :
    (windowRead valid v s).encValid = s.encValid ∧ (windowRead valid v s).decValid = s.decValid ∧ (windowRead valid v s).w = s.w := by
  obtain ⟨-, h⟩ | ⟨-, -, h⟩ | ⟨-, -, h⟩ := windowRead_cases valid v s <;> simp [h]

theorem windowRead_rejects_or_answers (valid : Bool) (v : Word) (s : State) :
    (∃ c, windowRead valid v s = raiseBusError c s) ∨ windowRead valid v s = respondOk v s := by
  obtain ⟨-, h⟩ | ⟨-, -, h⟩ | ⟨-, -, h⟩ := windowRead_cases valid v s
  · exact .inl ⟨_, h⟩
  · exact .inl ⟨_, h⟩
  · exact .inr h

theorem drk_congr {s u : State} (hw : u.w = s.w) : u.drk = s.drk := by rw [State.drk, State.drk, rk_congr hw]

theorem keyComplete_raiseBusError (c : ErrCode) (s : State) : keyComplete (raiseBusError c s) = keyComplete s := by
  simp [keyComplete]

theorem cmdWrite_of_busy {s : State} (hb : s.busy = true) (v : Word) : cmdWrite v s = raiseBusError .busy s := if_pos hb

/-- A command write that is rejected is rejected again with the same code: a rejection keeps what the checks of R150 read. -/
theorem cmdWrite_idem_of_rejected {v : Word} {s : State} (h : s.busy = true ∨ legalCommand v = false ∨ keyComplete s = false) :
    cmdWrite v (cmdWrite v s) = cmdWrite v s := by
  obtain ⟨hb, he⟩ | ⟨hb, hl, he⟩ | ⟨hb, hl, hk, he⟩ | ⟨hb, hl, hk, -⟩ := cmdWrite_cases v s
  · rw [he, cmdWrite_of_busy (by simpa using hb), raiseBusError_idem]
  · rw [he]
    simp [cmdWrite, hb, hl, raiseBusError_idem]
  · rw [he]
    simp [cmdWrite, hb, hl, hk, keyComplete_raiseBusError, raiseBusError_idem]
  · simp [hb, hl, hk] at h

/-! ### An instruction -/

/-- An instruction done twice is the instruction done once, unless it is a command that the checks of R150 let through. -/
theorem exec_idem {i : Instr} {s t : State} (hwf : WellFormed i)
    (hcmd : i = .expandEnc ∨ i = .expandDec → s.busy = true ∨ keyComplete s = false) (ht : exec i s = .next t) :
    exec i t = .next t := by
  cases i <;> cases ht
  case anyMisaligned | anyBadsize | rdCmd | wrExpw | wrRk | wrDrk | rdUnmapped | wrUnmapped =>
    exact congrArg Host.Outcome.next (raiseBusError_idem _ s)
  case rdKey | rdStatus | portRk | portDrk | portBadidx => rfl
  case wrKey n v => exact congrArg Host.Outcome.next (keyWrite_idem n v s)
  case expandEnc => exact congrArg Host.Outcome.next (cmdWrite_idem_of_rejected ((hcmd (.inl rfl)).imp_right .inr))
  case expandDec => exact congrArg Host.Outcome.next (cmdWrite_idem_of_rejected ((hcmd (.inr rfl)).imp_right .inr))
  case cmdIllegal v =>
    have hl : legalCommand v = false := by simpa [WellFormed, Instr.wf, legalCommand] using hwf
    exact congrArg Host.Outcome.next (cmdWrite_idem_of_rejected (.inr (.inl hl)))
  case wrStatus v =>
    rw [exec, execWrStatus]
    cases errClr v <;> rfl
  case rdExpw i =>
    obtain ⟨he, -, hw⟩ := windowRead_keeps s.encValid (s.wReg i) s
    rw [exec, execRdExpw, he, wReg_congr hw, windowRead_idem]
  case rdRk k r =>
    obtain ⟨he, -, hw⟩ := windowRead_keeps s.encValid (pack32 (blockRow s.rk[k] r)) s
    rw [exec, execRdRk, he, rk_congr hw, windowRead_idem]
  case rdDrk k r =>
    obtain ⟨-, hd, hw⟩ := windowRead_keeps s.decValid (pack32 (blockRow s.drk[k] r)) s
    rw [exec, execRdDrk, hd, drk_congr hw, windowRead_idem]

/-- A read is rejected or answered, and does nothing else: on each branch of the decode it is one of the reading rows. -/
theorem exec_read_cases {x : Txn} (hx : x.we = false) (s : State) :
    (∃ c, exec (decodeTxn x) s = .next (raiseBusError c s)) ∨ ∃ v, exec (decodeTxn x) s = .next (respondOk v s) := by
  simp only [decodeTxn, hx, Bool.false_eq_true, if_false]
  split_ifs
  · exact .inl ⟨_, rfl⟩
  · exact .inl ⟨_, rfl⟩
  · cases regAt x.addr with
    | none => exact .inl ⟨_, rfl⟩
    | some r =>
      cases r with
      | key | status => exact .inr ⟨_, rfl⟩
      | cmd => exact .inl ⟨_, rfl⟩
      | expw | rk | drk =>
        exact (windowRead_rejects_or_answers _ _ s).imp (fun ⟨c, h⟩ => ⟨c, congrArg _ h⟩) fun h => ⟨_, congrArg _ h⟩

end Sys2Proof.Machine

namespace Sys2Proof.Claims

open Sys2Proof.Machine

/-- An accepted command given again at once finds the block busy (R150). -/
theorem cmdWrite_again_rejected {v : Word} {s : State} (hb : s.busy = false) (hl : legalCommand v = true) (hk : s.keymask = 0xF) :
    cmdWrite v (cmdWrite v s) = rejectedWith 5 (cmdWrite v s) := by
  have hbusy : (cmdWrite v s).busy = true := by simp [cmdWrite, hb, hl, keyComplete, hk]
  rw [cmdWrite_of_busy hbusy, raiseBusError_eq_rejectedWith, errorCode]

/-- Settles O42: every instruction but an accepted command is idempotent (`exec_idem`), an answered read is one that
`exec_read_cases` does not reject, and an accepted command leaves the block busy. -/
theorem transactionsIdempotent : Obligations.TransactionsIdempotent := by
  refine ⟨fun i s t hwf hcmd ht => ?_, fun x s t v hx ht hresp => ?_, fun s t hb hk => ⟨fun ht => ?_, fun ht => ?_⟩⟩
  · exact exec_idem hwf (fun hi => by simpa [keyComplete] using hcmd hi) ht
  · obtain ⟨c, he⟩ | ⟨v', he⟩ := exec_read_cases hx s <;> cases he.symm.trans ht
    · simp at hresp
    · obtain rfl : v' = v := by simpa using hresp
      rfl
  · cases ht
    exact congrArg _ (cmdWrite_again_rejected hb (by decide) hk)
  · cases ht
    exact congrArg _ (cmdWrite_again_rejected hb (by decide) hk)

end Sys2Proof.Claims

/-! PROOF. Decode and encode (spec/30_encoding.md R71, R79, R80, R82): a record is its fields, so the reading of a record and its writing
are inverse; so are the decode of a transaction and the encoding of an instruction. -/

namespace Sys2Proof

/-! ### Records and their fields (R71, R79) -/

theorem extractLsb'_one {w : Nat} (x : BitVec w) (i : Nat) : x.extractLsb' i 1 = BitVec.ofBool (x.getLsbD i) := by
  rw [BitVec.getLsbD_eq_extractLsb']
  generalize x.extractLsb' i 1 = b
  decide +revert

/-- Two records with the same fields are equal. -/
theorem record_ext {x y : BitVec 64} (hwe : x.getLsbD 63 = y.getLsbD 63) (h62 : x.extractLsb' 62 1 = y.extractLsb' 62 1)
    (hsize : x.extractLsb' 60 2 = y.extractLsb' 60 2) (h44 : x.extractLsb' 44 16 = y.extractLsb' 44 16)
    (haddr : x.extractLsb' 32 12 = y.extractLsb' 32 12) (hdata : x.extractLsb' 0 32 = y.extractLsb' 0 32) : x = y := by
  have h63 : x.extractLsb' 63 1 = y.extractLsb' 63 1 := by rw [extractLsb'_one, extractLsb'_one, hwe]
  simp only [← BitVec.toNat_inj, BitVec.extractLsb'_toNat, Nat.shiftRight_eq_div_pow] at h63 h62 hsize h44 haddr hdata ⊢
  omega

/-- R71 refuses the reads that carry data. -/
theorem Txn.spellable_eq_false_iff (t : Txn) : t.spellable = false ↔ t.we = false ∧ t.wdata ≠ 0 := by
  rw [Txn.spellable, Bool.or_eq_false_iff, beq_eq_false_iff_ne]

/-- A transaction whose record R71 allows is read back from it. -/
theorem Txn.ofRecord_toRecord {t : Txn} (h : t.spellable = true) : Txn.ofRecord t.toRecord = .ok t := by
  simp only [Txn.ofRecord, Txn.toRecord_we, Txn.toRecord_reserved62, Txn.toRecord_size, Txn.toRecord_reserved, Txn.toRecord_addr,
    Txn.toRecord_wdata, ne_eq, not_true_eq_false, or_self, if_false]
  exact if_neg (mt t.spellable_eq_false_iff.mpr (by simp [h]))

/-- What a record is read as has that record, and R71 allows it. -/
theorem Txn.toRecord_of_ofRecord {r : BitVec 64} {t : Txn} (h : Txn.ofRecord r = .ok t) : t.toRecord = r ∧ t.spellable = true := by
  simp only [Txn.ofRecord] at h
  split_ifs at h with hres hdata
  obtain rfl := Except.ok.inj h
  obtain ⟨h62, h44⟩ := not_or.mp hres
  refine ⟨record_ext (Txn.toRecord_we _) ?_ (Txn.toRecord_size _) ?_ (Txn.toRecord_addr _) (Txn.toRecord_wdata _),
    Bool.of_not_eq_false (mt (Txn.spellable_eq_false_iff _).mp hdata)⟩
  · rw [Txn.toRecord_reserved62, not_not.mp h62]
  · rw [Txn.toRecord_reserved, not_not.mp h44]

/-- Two port bytes with the same fields are equal. -/
theorem portByte_ext {x y : BitVec 8} (hsel : x.getLsbD 4 = y.getLsbD 4) (hhigh : x.extractLsb' 5 3 = y.extractLsb' 5 3)
    (hidx : x.extractLsb' 0 4 = y.extractLsb' 0 4) : x = y := by
  have h4 : x.extractLsb' 4 1 = y.extractLsb' 4 1 := by rw [extractLsb'_one, extractLsb'_one, hsel]
  simp only [← BitVec.toNat_inj, BitVec.extractLsb'_toNat, Nat.shiftRight_eq_div_pow] at h4 hhigh hidx ⊢
  omega

theorem PortRequest.ofByte_toByte (p : PortRequest) : PortRequest.ofByte p.toByte = .ok p := by
  simp only [PortRequest.ofByte, PortRequest.toByte_high, PortRequest.toByte_sel, PortRequest.toByte_idx, ne_eq, not_true_eq_false,
    if_false]

theorem PortRequest.toByte_of_ofByte {q : BitVec 8} {p : PortRequest} (h : PortRequest.ofByte q = .ok p) : p.toByte = q := by
  unfold PortRequest.ofByte at h
  split_ifs at h with hhigh
  obtain rfl := Except.ok.inj h
  exact portByte_ext (PortRequest.toByte_sel _) (by rw [PortRequest.toByte_high, not_not.mp hhigh]) (PortRequest.toByte_idx _)

theorem decode_toRecord {t : Txn} (h : t.spellable = true) : decode (.txn64 t.toRecord) = .ok (decodeTxn t) := by
  simp only [decode, Txn.ofRecord_toRecord h]

theorem decode_toByte (p : PortRequest) : decode (.port p.toByte) = .ok (decodePort p) := by
  simp only [decode, PortRequest.ofByte_toByte]

/-- A record that decodes spells a transaction or a port request. -/
theorem decode_cases {r : Record} {i : Instr} (h : decode r = .ok i) :
    (∃ t : Txn, t.spellable = true ∧ r = .txn64 t.toRecord ∧ i = decodeTxn t) ∨
    (∃ p : PortRequest, r = .port p.toByte ∧ i = decodePort p) := by
  cases r with
  | txn64 r =>
    simp only [decode] at h
    split at h
    next t ht =>
      obtain ⟨rfl, hspell⟩ := Txn.toRecord_of_ofRecord ht
      exact .inl ⟨t, hspell, rfl, (Except.ok.inj h).symm⟩
    next => cases h
  | port q =>
    simp only [decode] at h
    split at h
    next p hp =>
      obtain rfl := PortRequest.toByte_of_ofByte hp
      exact .inr ⟨p, rfl, (Except.ok.inj h).symm⟩
    next => cases h

/-! ### A register's transactions (R80, R82) -/

/-- The row that reads a register. -/
def Target.readInstr : Target → Instr
  | .key n => .rdKey n
  | .cmd => .rdCmd
  | .status => .rdStatus
  | .expw i => .rdExpw i
  | .rk k r => .rdRk k r
  | .drk k r => .rdDrk k r

/-- The row that writes a word to a register. -/
def Target.writeInstr : Target → Word → Instr
  | .key n, v => .wrKey n v
  | .cmd, v => decodeCmd v
  | .status, v => .wrStatus v
  | .expw i, v => .wrExpw i v
  | .rk k r, v => .wrRk k r v
  | .drk k r, v => .wrDrk k r v

theorem decodeCmd_of_ne {v : Word} (h1 : v ≠ 1) (h2 : v ≠ 2) : decodeCmd v = .cmdIllegal v := by rw [decodeCmd, if_neg h1, if_neg h2]

/-- The three rows of a CMD write (R74). -/
theorem decodeCmd_cases (v : Word) :
    (v = 1 ∧ decodeCmd v = .expandEnc) ∨ (v = 2 ∧ decodeCmd v = .expandDec) ∨
    (v ≠ 1 ∧ v ≠ 2 ∧ decodeCmd v = .cmdIllegal v) := by
  by_cases h1 : v = 1
  · exact .inl ⟨h1, if_pos h1⟩
  · by_cases h2 : v = 2
    · exact .inr (.inl ⟨h2, by rw [decodeCmd, if_neg h1, if_pos h2]⟩)
    · exact .inr (.inr ⟨h1, h2, decodeCmd_of_ne h1 h2⟩)

theorem Target.offset_toNat_mod_four (r : Target) : r.offset.toNat % 4 = 0 := by
  cases r <;> simp <;> omega

theorem decodeTxn_of_mapped {t : Txn} {r : Target} (hs : t.size = 2) (ha : t.addr = r.offset) :
    decodeTxn t = if t.we then r.writeInstr t.wdata else r.readInstr := by
  have hal : t.addr.extractLsb' 0 2 = 0 := (lowBits_eq_zero_iff _).mpr (ha ▸ r.offset_toNat_mod_four)
  have hr : regAt t.addr = some r := ha ▸ regAt_offset r
  rw [decodeTxn, if_neg (not_not.mpr hal), if_neg (not_not.mpr hs), hr]
  cases r <;> rfl

theorem decodeTxn_read (r : Target) : decodeTxn (.read r.offset) = r.readInstr := decodeTxn_of_mapped rfl rfl

theorem decodeTxn_write (r : Target) (v : Word) : decodeTxn (.write r.offset v) = r.writeInstr v := decodeTxn_of_mapped rfl rfl

theorem decode_read (r : Target) : decode (.txn64 (Txn.read r.offset).toRecord) = .ok r.readInstr := by
  rw [decode_toRecord rfl, decodeTxn_read]

theorem decode_write (r : Target) (v : Word) : decode (.txn64 (Txn.write r.offset v).toRecord) = .ok (r.writeInstr v) := by
  rw [decode_toRecord rfl, decodeTxn_write]

/-- What a transaction decodes to, in the order of R82. -/
theorem decodeTxn_cases (t : Txn) :
    (t.addr.toNat % 4 ≠ 0 ∧ decodeTxn t = .anyMisaligned t) ∨
    (t.addr.toNat % 4 = 0 ∧ t.size ≠ 2 ∧ decodeTxn t = .anyBadsize t) ∨
    (t.addr.toNat % 4 = 0 ∧ t.size = 2 ∧ regAt t.addr = none ∧
      decodeTxn t = if t.we then .wrUnmapped t.addr t.wdata else .rdUnmapped t.addr) ∨
    (∃ r : Target, t.size = 2 ∧ t.addr = r.offset ∧ decodeTxn t = if t.we then r.writeInstr t.wdata else r.readInstr) := by
  by_cases hal : t.addr.toNat % 4 = 0
  · by_cases hs : t.size = 2
    · rcases hr : regAt t.addr with _ | r
      · exact .inr (.inr (.inl ⟨hal, hs, rfl, decodeTxn_of_unmapped hal hs hr⟩))
      · have ha := (offset_of_regAt hr).symm
        exact .inr (.inr (.inr ⟨r, hs, ha, decodeTxn_of_mapped hs ha⟩))
    · exact .inr (.inl ⟨hal, hs, decodeTxn_of_badsize hal hs⟩)
  · exact .inl ⟨hal, decodeTxn_of_misaligned hal⟩

/-! ### Well-formed operands -/

theorem wordAligned_iff (a : BitVec 12) : wordAligned a = true ↔ a.toNat % 4 = 0 := by
  rw [wordAligned, beq_iff_eq, lowBits_eq_zero_iff]

theorem anyMisaligned_wellFormed_iff (t : Txn) : WellFormed (.anyMisaligned t) ↔ t.addr.toNat % 4 ≠ 0 ∧ t.spellable = true := by
  rw [WellFormed, Instr.wf, Bool.and_eq_true, Bool.not_eq_true', ← Bool.not_eq_true, wordAligned_iff]

theorem anyBadsize_wellFormed_iff (t : Txn) :
    WellFormed (.anyBadsize t) ↔ t.addr.toNat % 4 = 0 ∧ t.size ≠ 2 ∧ t.spellable = true := by
  rw [WellFormed, Instr.wf, Bool.and_eq_true, Bool.and_eq_true, wordAligned_iff, bne_iff_ne, and_assoc]

theorem cmdIllegal_wellFormed_iff (v : Word) : WellFormed (.cmdIllegal v) ↔ v ≠ 1 ∧ v ≠ 2 := by
  rw [WellFormed, Instr.wf, Bool.and_eq_true, bne_iff_ne, bne_iff_ne]

/-- The unmapped ranges as numbers (R53, R183). -/
theorem unmappedOffset_iff_ranges (a : BitVec 12) : unmappedOffset a = true ↔ a.toNat % 4 = 0 ∧
    (0x018 ≤ a.toNat ∧ a.toNat ≤ 0x0FC ∨ 0x1B0 ≤ a.toNat ∧ a.toNat ≤ 0x1FC ∨ 0x2B0 ≤ a.toNat ∧ a.toNat ≤ 0x2FC ∨
      0x3B0 ≤ a.toNat) := by
  simp only [unmappedOffset, Bool.and_eq_true, Bool.or_eq_true, wordAligned_iff, decide_eq_true_eq, BitVec.le_def, BitVec.toNat_ofNat,
    or_assoc]

/-- They are the aligned offsets at which the map has no register. -/
theorem unmappedOffset_iff (a : BitVec 12) : unmappedOffset a = true ↔ a.toNat % 4 = 0 ∧ regAt a = none := by
  have hlt := a.isLt
  rw [unmappedOffset_iff_ranges]
  refine and_congr_right fun hal => ?_
  rw [regAt]
  split_ifs <;> simp <;> omega

/-! ### Encode after decode -/

/-- The encoding of a register's read is the record of that read. -/
theorem encode_readInstr (r : Target) : encode r.readInstr = .txn64 (Txn.read r.offset).toRecord := by cases r <;> rfl

theorem encode_writeInstr (r : Target) (v : Word) : encode (r.writeInstr v) = .txn64 (Txn.write r.offset v).toRecord := by
  cases r with
  | cmd => obtain ⟨rfl, hd⟩ | ⟨rfl, hd⟩ | ⟨-, -, hd⟩ := decodeCmd_cases v <;> exact congrArg encode hd
  | _ => rfl

theorem readInstr_wellFormed (r : Target) : WellFormed r.readInstr := by cases r <;> rfl

theorem writeInstr_wellFormed (r : Target) (v : Word) : WellFormed (r.writeInstr v) := by
  cases r with
  | cmd =>
    rw [Target.writeInstr]
    obtain ⟨-, hd⟩ | ⟨-, hd⟩ | ⟨h1, h2, hd⟩ := decodeCmd_cases v <;> rw [hd]
    · rfl
    · rfl
    · exact (cmdIllegal_wellFormed_iff v).mpr ⟨h1, h2⟩
  | _ => rfl

/-- A 4-byte transaction that R71 allows is a read or a write as the assembler spells them. -/
theorem Txn.eq_read_or_write {t : Txn} (h : t.spellable = true) (hs : t.size = 2) :
    (t.we = false ∧ t = .read t.addr) ∨ (t.we = true ∧ t = .write t.addr t.wdata) := by
  obtain ⟨we, size, addr, wdata⟩ := t
  obtain rfl : size = 2 := hs
  cases we
  · obtain rfl : wdata = 0 := by simpa [Txn.spellable] using h
    exact .inl ⟨rfl, rfl⟩
  · exact .inr ⟨rfl, rfl⟩

theorem decodeTxn_wellFormed {t : Txn} (h : t.spellable = true) : WellFormed (decodeTxn t) := by
  obtain ⟨hal, hd⟩ | ⟨hal, hs, hd⟩ | ⟨hal, hs, hr, hd⟩ | ⟨r, hs, ha, hd⟩ := decodeTxn_cases t <;> rw [hd]
  · exact (anyMisaligned_wellFormed_iff t).mpr ⟨hal, h⟩
  · exact (anyBadsize_wellFormed_iff t).mpr ⟨hal, hs, h⟩
  · have hun : unmappedOffset t.addr = true := (unmappedOffset_iff _).mpr ⟨hal, hr⟩
    split <;> exact hun
  · split
    · exact writeInstr_wellFormed r _
    · exact readInstr_wellFormed r

/-- Each row's encoding keeps every field of the transaction decoded. -/
theorem encode_decodeTxn {t : Txn} (h : t.spellable = true) : encode (decodeTxn t) = .txn64 t.toRecord := by
  obtain ⟨-, hd⟩ | ⟨-, -, hd⟩ | ⟨-, hs, -, hd⟩ | ⟨r, hs, ha, hd⟩ := decodeTxn_cases t
  · rw [hd]; rfl
  · rw [hd]; rfl
  · obtain ⟨hwe, ht⟩ | ⟨hwe, ht⟩ := Txn.eq_read_or_write h hs <;> rw [hd, hwe, ht] <;> rfl
  · obtain ⟨hwe, ht⟩ | ⟨hwe, ht⟩ := Txn.eq_read_or_write h hs
    · rw [hd, hwe, if_neg Bool.false_ne_true, encode_readInstr, ht, ← ha]
    · rw [hd, hwe, if_pos rfl, encode_writeInstr, ← ha, ← ht]

theorem decodePort_of_le {p : PortRequest} (h : p.idx.toNat ≤ 10) :
    decodePort p = if p.sel then .portDrk ⟨p.idx.toNat, by omega⟩ else .portRk ⟨p.idx.toNat, by omega⟩ :=
  dif_pos (by omega)

theorem decodePort_of_gt {p : PortRequest} (h : 11 ≤ p.idx.toNat) : decodePort p = .portBadidx p.sel p.idx := dif_neg (by omega)

theorem decodePort_wellFormed (p : PortRequest) : WellFormed (decodePort p) := by
  obtain h | h := Nat.lt_or_ge 10 p.idx.toNat
  · rw [decodePort_of_gt h]
    exact decide_eq_true h
  · rw [decodePort_of_le h]
    split <;> rfl

theorem encode_decodePort (p : PortRequest) : encode (decodePort p) = .port p.toByte := by
  obtain ⟨sel, idx⟩ := p
  obtain h | h := Nat.lt_or_ge 10 idx.toNat
  · rw [decodePort_of_gt (p := ⟨sel, idx⟩) h]; rfl
  · rw [decodePort_of_le h]
    cases sel <;> simp [encode]

/-! ### Decode after encode -/

theorem decodePort_ofNat (sel : Bool) (k : Fin 11) :
    decodePort ⟨sel, BitVec.ofNat 4 k.val⟩ = if sel then .portDrk k else .portRk k := by
  have hk : (BitVec.ofNat 4 k.val).toNat = k.val := Machine.portIdx_toNat k
  rw [decodePort_of_le (by dsimp only; omega)]
  simp only [hk, Fin.eta]

theorem decode_encode {i : Instr} (h : WellFormed i) : decode (encode i) = .ok i := by
  cases i with
  | anyMisaligned t =>
    obtain ⟨hal, hspell⟩ := (anyMisaligned_wellFormed_iff t).mp h
    rw [encode, decode_toRecord hspell, decodeTxn_of_misaligned hal]
  | anyBadsize t =>
    obtain ⟨hal, hs, hspell⟩ := (anyBadsize_wellFormed_iff t).mp h
    rw [encode, decode_toRecord hspell, decodeTxn_of_badsize hal hs]
  | rdUnmapped a =>
    obtain ⟨hal, hr⟩ := (unmappedOffset_iff a).mp h
    rw [encode, decode_toRecord rfl, decodeTxn_of_unmapped hal rfl hr]; rfl
  | wrUnmapped a v =>
    obtain ⟨hal, hr⟩ := (unmappedOffset_iff a).mp h
    rw [encode, decode_toRecord rfl, decodeTxn_of_unmapped hal rfl hr]; rfl
  | rdKey n => exact decode_read (.key n)
  | rdCmd => exact decode_read .cmd
  | rdStatus => exact decode_read .status
  | rdExpw i => exact decode_read (.expw i)
  | rdRk k r => exact decode_read (.rk k r)
  | rdDrk k r => exact decode_read (.drk k r)
  | wrKey n v => exact decode_write (.key n) v
  | expandEnc => exact decode_write .cmd 1
  | expandDec => exact decode_write .cmd 2
  | cmdIllegal v =>
    obtain ⟨h1, h2⟩ := (cmdIllegal_wellFormed_iff v).mp h
    exact (decode_write .cmd v).trans (congrArg Except.ok (decodeCmd_of_ne h1 h2))
  | wrStatus v => exact decode_write .status v
  | wrExpw i v => exact decode_write (.expw i) v
  | wrRk k r v => exact decode_write (.rk k r) v
  | wrDrk k r v => exact decode_write (.drk k r) v
  | portRk k => rw [encode, decode_toByte, decodePort_ofNat]; rfl
  | portDrk k => rw [encode, decode_toByte, decodePort_ofNat]; rfl
  | portBadidx sel idx =>
    have hidx : 11 ≤ idx.toNat := of_decide_eq_true h
    rw [encode, decode_toByte, decodePort_of_gt hidx]

end Sys2Proof

namespace Sys2Proof.Claims

/-- Settles O1, case by case: each row's record is read back field by field (`decode_encode`). -/
theorem decodeEncodeRoundTrip : Obligations.DecodeEncodeRoundTrip := fun _ => decode_encode

/-- Settles O2: a record that decodes is the record of a transaction or of a port request (`decode_cases`), and the encoding of what
either decodes to is that record again. -/
theorem encodeDecodeRoundTrip : Obligations.EncodeDecodeRoundTrip := by
  intro r i h
  obtain ⟨t, hspell, rfl, rfl⟩ | ⟨p, rfl, rfl⟩ := decode_cases h
  · exact ⟨decodeTxn_wellFormed hspell, encode_decodeTxn hspell⟩
  · exact ⟨decodePort_wellFormed p, encode_decodePort p⟩

end Sys2Proof.Claims

/-! PROOF. The opcode table and the decoder (spec/30_encoding.md R71, R79, R82). A row's mask covers each piece of a record wholly or not
at all, so whether a row takes a record is a condition on the record's fields. -/

namespace Sys2Proof

/-! ### Which records spell no transaction (R71) -/

/-- The reserved bits 62 and 59:44 are 0. -/
abbrev reservedZero (r : BitVec 64) : Prop := r.extractLsb' 62 1 = 0 ∧ r.extractLsb' 44 16 = 0

/-- A record whose reserved bits are 0 is the record of its fields. -/
theorem exists_toRecord_of_reservedZero {r : BitVec 64} (h : reservedZero r) : ∃ t : Txn, t.toRecord = r := by
  obtain ⟨h62, h44⟩ := h
  refine ⟨⟨r.getLsbD 63, r.extractLsb' 60 2, r.extractLsb' 32 12, r.extractLsb' 0 32⟩, ?_⟩
  exact record_ext (Txn.toRecord_we _) (h62 ▸ Txn.toRecord_reserved62 _) (Txn.toRecord_size _) (h44 ▸ Txn.toRecord_reserved _)
    (Txn.toRecord_addr _) (Txn.toRecord_wdata _)

theorem decode_of_reserved {r : BitVec 64} (h : ¬reservedZero r) : decode (.txn64 r) = .error .reservedBits := by
  rw [decode, Txn.ofRecord, if_pos (not_and_or.mp h)]

theorem decode_toRecord_of_not_spellable {t : Txn} (h : t.spellable = false) : decode (.txn64 t.toRecord) = .error .readWithData := by
  simp only [decode, Txn.ofRecord, Txn.toRecord_we, Txn.toRecord_reserved62, Txn.toRecord_size, Txn.toRecord_reserved, Txn.toRecord_addr,
    Txn.toRecord_wdata, ne_eq, not_true_eq_false, or_self, if_false]
  rw [if_pos (t.spellable_eq_false_iff.mp h)]

/-! ### A row's condition, piece by piece -/

theorem and_eq_left_of_ones {w : Nat} (x m : BitVec w) (h : m = BitVec.allOnes w) : x &&& m = x := by rw [h, BitVec.and_allOnes]

theorem extractLsb'_eq_iff {w : Nat} (x : BitVec w) (s l : Nat) (c : BitVec l) :
    x.extractLsb' s l = c ↔ x.toNat / 2 ^ s % 2 ^ l = c.toNat := by
  rw [← BitVec.toNat_inj, BitVec.extractLsb'_toNat, Nat.shiftRight_eq_div_pow]

theorem addr_ext {a b : BitVec 12} (h8 : a.extractLsb' 8 4 = b.extractLsb' 8 4) (h4 : a.extractLsb' 4 4 = b.extractLsb' 4 4)
    (h2 : a.extractLsb' 2 2 = b.extractLsb' 2 2) (h0 : a.extractLsb' 0 2 = b.extractLsb' 0 2) : a = b := by
  simp only [extractLsb'_eq_iff, BitVec.extractLsb'_toNat, Nat.shiftRight_eq_div_pow] at h8 h4 h2 h0
  exact BitVec.eq_of_toNat_eq (by omega)

theorem extractLsb'_addr (x : BitVec 64) {s l : Nat} (h : s + l ≤ 12) :
    (x.extractLsb' 32 12).extractLsb' s l = x.extractLsb' (32 + s) l := by
  refine BitVec.eq_of_getLsbD_eq fun i hi => ?_
  have hlt : s + i < 12 := by omega
  simp [Nat.add_assoc, hi, hlt]

/-- A record under a mask, with ADDR cut where the masks of the table cut it. -/
theorem record_and_eq_iff (r mask bits : BitVec 64) : r &&& mask = bits ↔
    (r.extractLsb' 62 1 &&& mask.extractLsb' 62 1 = bits.extractLsb' 62 1 ∧
      r.extractLsb' 44 16 &&& mask.extractLsb' 44 16 = bits.extractLsb' 44 16) ∧
    (BitVec.ofBool (r.getLsbD 63) &&& mask.extractLsb' 63 1 = bits.extractLsb' 63 1 ∧
      r.extractLsb' 60 2 &&& mask.extractLsb' 60 2 = bits.extractLsb' 60 2 ∧
      r.extractLsb' 0 32 &&& mask.extractLsb' 0 32 = bits.extractLsb' 0 32) ∧
    ((r.extractLsb' 32 12).extractLsb' 8 4 &&& mask.extractLsb' 40 4 = bits.extractLsb' 40 4 ∧
      (r.extractLsb' 32 12).extractLsb' 4 4 &&& mask.extractLsb' 36 4 = bits.extractLsb' 36 4 ∧
      (r.extractLsb' 32 12).extractLsb' 2 2 &&& mask.extractLsb' 34 2 = bits.extractLsb' 34 2 ∧
      (r.extractLsb' 32 12).extractLsb' 0 2 &&& mask.extractLsb' 32 2 = bits.extractLsb' 32 2) := by
  rw [← extractLsb'_one, extractLsb'_addr r (by decide), extractLsb'_addr r (by decide), extractLsb'_addr r (by decide),
    extractLsb'_addr r (by decide)]
  simp only [← BitVec.extractLsb'_and]
  constructor
  · rintro rfl
    simp
  · rintro ⟨⟨h62, h44⟩, ⟨h63, h60, hdata⟩, h8, h4, h2, h0⟩
    refine record_ext ?_ h62 h60 h44 (addr_ext ?_ ?_ ?_ ?_) hdata
    · rw [BitVec.getLsbD_eq_extractLsb', BitVec.getLsbD_eq_extractLsb', h63]
    all_goals rwa [extractLsb'_addr _ (by decide), extractLsb'_addr _ (by decide)]

theorem TableRow.takes_iff (row : TableRow) (r : BitVec 64) :
    row.takes r = true ↔ r &&& row.mask = row.bits ∧ row.constraint r = true := by
  rw [TableRow.takes, Bool.and_eq_true, beq_iff_eq]

@[simp] theorem recordAddr_toRecord (t : Txn) : recordAddr t.toRecord = t.addr.toNat := by rw [recordAddr, t.toRecord_addr]

@[simp] theorem readDataZero_toRecord (t : Txn) : readDataZero t.toRecord = t.spellable := by
  rw [readDataZero, t.toRecord_we, t.toRecord_wdata, Txn.spellable]

/-- The table lists the unmapped offsets as the check of well-formedness does. -/
@[simp] theorem unmappedRange_toRecord (t : Txn) : unmappedRange t.toRecord = unmappedOffset t.addr := by
  have hlt := t.addr.isLt
  rw [Bool.eq_iff_iff, unmappedOffset_iff_ranges]
  simp only [unmappedRange, recordAddr_toRecord, Bool.and_eq_true, Bool.or_eq_true, beq_iff_eq, decide_eq_true_eq]
  omega

/-- A row's condition on the record of a transaction. -/
theorem TableRow.takes_toRecord_iff (row : TableRow) (t : Txn) : row.takes t.toRecord = true ↔
    ((0 = row.bits.extractLsb' 62 1 ∧ 0 = row.bits.extractLsb' 44 16) ∧
      (BitVec.ofBool t.we &&& row.mask.extractLsb' 63 1 = row.bits.extractLsb' 63 1 ∧
        t.size &&& row.mask.extractLsb' 60 2 = row.bits.extractLsb' 60 2 ∧
        t.wdata &&& row.mask.extractLsb' 0 32 = row.bits.extractLsb' 0 32) ∧
      (t.addr.extractLsb' 8 4 &&& row.mask.extractLsb' 40 4 = row.bits.extractLsb' 40 4 ∧
        t.addr.extractLsb' 4 4 &&& row.mask.extractLsb' 36 4 = row.bits.extractLsb' 36 4 ∧
        t.addr.extractLsb' 2 2 &&& row.mask.extractLsb' 34 2 = row.bits.extractLsb' 34 2 ∧
        t.addr.extractLsb' 0 2 &&& row.mask.extractLsb' 32 2 = row.bits.extractLsb' 32 2)) ∧
    row.constraint t.toRecord = true := by
  rw [TableRow.takes_iff, record_and_eq_iff, t.toRecord_reserved62, t.toRecord_reserved, t.toRecord_we, t.toRecord_size, t.toRecord_wdata,
    t.toRecord_addr]
  simp only [BitVec.ofNat_eq_ofNat, BitVec.zero_and]

/-! ### The first row that takes a record (R82) -/

theorem find?_cons_map {α β : Type} (f : α → β) (p : α → Bool) (a : α) (l : List α) :
    ((a :: l).find? p).map f = if p a = true then some (f a) else (l.find? p).map f := by
  rw [List.find?_cons]
  cases p a <;> rfl

/-- Every row asks for the reserved bits to be 0. -/
theorem tableMnemonic_of_reserved {r : BitVec 64} (h : ¬reservedZero r) : tableMnemonic r = none := by
  have h' : (r.extractLsb' 62 1 = 0#1 ∧ r.extractLsb' 44 16 = 0#16) = False := eq_false h
  simp only [tableMnemonic, opcodeRows, List.cons_append, List.nil_append, find?_cons_map, TableRow.takes_iff, record_and_eq_iff,
    List.find?_nil]
  simp [and_eq_left_of_ones, h', -not_and]

section
variable {t : Txn}

/-- Every row that takes a read asks for its data to be 0. -/
theorem tableMnemonic_of_not_spellable (h : t.spellable = false) : tableMnemonic t.toRecord = none := by
  have hdata : t.we = false ∧ t.wdata ≠ 0#32 := t.spellable_eq_false_iff.mp h
  simp [tableMnemonic, opcodeRows, TableRow.takes_toRecord_iff, and_eq_left_of_ones, h, hdata]

theorem tableMnemonic_of_misaligned (h : t.spellable = true) (hal : t.addr.toNat % 4 ≠ 0) :
    tableMnemonic t.toRecord = some "ANY_MISALIGNED" := by
  simp only [tableMnemonic, opcodeRows, List.cons_append, find?_cons_map, TableRow.takes_toRecord_iff]
  exact if_pos (by simp [hal, h])

theorem tableMnemonic_of_badsize (h : t.spellable = true) (hal : t.addr.toNat % 4 = 0) (hs : t.size ≠ 2) :
    tableMnemonic t.toRecord = some "ANY_BADSIZE" := by
  have hs' : ¬t.size = 2#2 := hs
  have hal' : t.addr.extractLsb' 0 2 = 0#2 := (lowBits_eq_zero_iff _).mpr hal
  simp only [tableMnemonic, opcodeRows, List.cons_append, find?_cons_map, TableRow.takes_toRecord_iff]
  rw [if_neg (by simp [hal]), if_pos (by simp [hal, hal', hs', h])]

end

/-- The rows that an aligned 4-byte read can fit. -/
theorem tableMnemonic_alignedRead {a : BitVec 12} (hal : a.toNat % 4 = 0) : tableMnemonic (Txn.read a).toRecord =
    if a.toNat / 256 % 16 = 0 ∧ a.toNat / 16 % 16 = 0 then some "RD_KEY"
    else if a.toNat / 256 % 16 = 0 ∧ a.toNat / 16 % 16 = 1 ∧ a.toNat / 4 % 4 = 0 then some "RD_CMD"
    else if a.toNat / 256 % 16 = 0 ∧ a.toNat / 16 % 16 = 1 ∧ a.toNat / 4 % 4 = 1 then some "RD_STATUS"
    else if a.toNat / 256 % 16 = 1 ∧ 0x100 ≤ a.toNat ∧ a.toNat ≤ 0x1AC then some "RD_EXPW"
    else if a.toNat / 256 % 16 = 2 ∧ 0x200 ≤ a.toNat ∧ a.toNat ≤ 0x2AC then some "RD_RK"
    else if a.toNat / 256 % 16 = 3 ∧ 0x300 ≤ a.toNat ∧ a.toNat ≤ 0x3AC then some "RD_DRK"
    else if unmappedOffset a = true then some "RD_UNMAPPED" else none := by
  simp [tableMnemonic, opcodeRows, find?_cons_map, TableRow.takes_toRecord_iff, Txn.read, and_eq_left_of_ones, extractLsb'_eq_iff, hal]

/-- The rows that an aligned 4-byte write can fit. -/
theorem tableMnemonic_alignedWrite {a : BitVec 12} (hal : a.toNat % 4 = 0) (v : Word) : tableMnemonic (Txn.write a v).toRecord =
    if a.toNat / 256 % 16 = 0 ∧ a.toNat / 16 % 16 = 0 then some "WR_KEY"
    else if v = 1 ∧ a.toNat / 256 % 16 = 0 ∧ a.toNat / 16 % 16 = 1 ∧ a.toNat / 4 % 4 = 0 then some "EXPAND_ENC"
    else if v = 2 ∧ a.toNat / 256 % 16 = 0 ∧ a.toNat / 16 % 16 = 1 ∧ a.toNat / 4 % 4 = 0 then some "EXPAND_DEC"
    else if (a.toNat / 256 % 16 = 0 ∧ a.toNat / 16 % 16 = 1 ∧ a.toNat / 4 % 4 = 0) ∧ v ≠ 1 ∧ v ≠ 2 then some "CMD_ILLEGAL"
    else if a.toNat / 256 % 16 = 0 ∧ a.toNat / 16 % 16 = 1 ∧ a.toNat / 4 % 4 = 1 then some "WR_STATUS"
    else if a.toNat / 256 % 16 = 1 ∧ 0x100 ≤ a.toNat ∧ a.toNat ≤ 0x1AC then some "WR_EXPW"
    else if a.toNat / 256 % 16 = 2 ∧ 0x200 ≤ a.toNat ∧ a.toNat ≤ 0x2AC then some "WR_RK"
    else if a.toNat / 256 % 16 = 3 ∧ 0x300 ≤ a.toNat ∧ a.toNat ≤ 0x3AC then some "WR_DRK"
    else if unmappedOffset a = true then some "WR_UNMAPPED" else none := by
  simp [tableMnemonic, opcodeRows, find?_cons_map, TableRow.takes_toRecord_iff, Txn.write, and_eq_left_of_ones,
    extractLsb'_eq_iff, hal]

theorem tableMnemonic_unmappedRead {a : BitVec 12} (h : unmappedOffset a = true) :
    tableMnemonic (Txn.read a).toRecord = some "RD_UNMAPPED" := by
  obtain ⟨hal, hrange⟩ := (unmappedOffset_iff_ranges a).mp h
  rw [tableMnemonic_alignedRead hal, if_neg (by omega), if_neg (by omega), if_neg (by omega), if_neg (by omega), if_neg (by omega),
    if_neg (by omega), if_pos h]

theorem tableMnemonic_unmappedWrite {a : BitVec 12} (h : unmappedOffset a = true) (v : Word) :
    tableMnemonic (Txn.write a v).toRecord = some "WR_UNMAPPED" := by
  obtain ⟨hal, hrange⟩ := (unmappedOffset_iff_ranges a).mp h
  rw [tableMnemonic_alignedWrite hal, if_neg (by omega), if_neg (by omega), if_neg (by omega), if_neg (by omega), if_neg (by omega),
    if_neg (by omega), if_neg (by omega), if_neg (by omega), if_pos h]

theorem tableMnemonic_read (r : Target) : tableMnemonic (Txn.read r.offset).toRecord = some r.readInstr.mnemonic := by
  rw [tableMnemonic_alignedRead r.offset_toNat_mod_four]
  cases r with
  | key n =>
    have ha := Target.offset_key_toNat n
    exact if_pos (by omega)
  | cmd => rfl
  | status => rfl
  | expw i =>
    have ha := Target.offset_expw_toNat i
    rw [if_neg (by omega), if_neg (by omega), if_neg (by omega)]
    exact if_pos (by omega)
  | rk k r =>
    have ha := Target.offset_rk_toNat k r
    rw [if_neg (by omega), if_neg (by omega), if_neg (by omega), if_neg (by omega)]
    exact if_pos (by omega)
  | drk k r =>
    have ha := Target.offset_drk_toNat k r
    rw [if_neg (by omega), if_neg (by omega), if_neg (by omega), if_neg (by omega), if_neg (by omega)]
    exact if_pos (by omega)

theorem tableMnemonic_write (r : Target) (v : Word) :
    tableMnemonic (Txn.write r.offset v).toRecord = some (r.writeInstr v).mnemonic := by
  rw [tableMnemonic_alignedWrite r.offset_toNat_mod_four]
  cases r with
  | key n =>
    have ha := Target.offset_key_toNat n
    exact if_pos (by omega)
  | cmd =>
    rw [Target.writeInstr]
    obtain ⟨rfl, hd⟩ | ⟨rfl, hd⟩ | ⟨h1, h2, hd⟩ := decodeCmd_cases v <;> rw [hd]
    · rfl
    · rfl
    · rw [if_neg (by decide), if_neg (h1 ·.1), if_neg (h2 ·.1)]
      exact if_pos ⟨by decide, h1, h2⟩
  | status =>
    rw [if_neg (by decide), if_neg (by simp), if_neg (by simp), if_neg (by simp)]
    rfl
  | expw i =>
    have ha := Target.offset_expw_toNat i
    rw [if_neg (by omega), if_neg (by omega), if_neg (by omega), if_neg (by omega), if_neg (by omega)]
    exact if_pos (by omega)
  | rk k r =>
    have ha := Target.offset_rk_toNat k r
    rw [if_neg (by omega), if_neg (by omega), if_neg (by omega), if_neg (by omega), if_neg (by omega), if_neg (by omega)]
    exact if_pos (by omega)
  | drk k r =>
    have ha := Target.offset_drk_toNat k r
    rw [if_neg (by omega), if_neg (by omega), if_neg (by omega), if_neg (by omega), if_neg (by omega), if_neg (by omega),
      if_neg (by omega)]
    exact if_pos (by omega)

/-- The first row that takes the record of a transaction is the row the decoder reads, in each case of the decode. -/
theorem tableMnemonic_toRecord {t : Txn} (h : t.spellable = true) : tableMnemonic t.toRecord = some (decodeTxn t).mnemonic := by
  obtain ⟨hal, hd⟩ | ⟨hal, hs, hd⟩ | ⟨hal, hs, hr, hd⟩ | ⟨r, hs, ha, hd⟩ := decodeTxn_cases t <;> rw [hd]
  · exact tableMnemonic_of_misaligned h hal
  · exact tableMnemonic_of_badsize h hal hs
  · have hu := (unmappedOffset_iff t.addr).mpr ⟨hal, hr⟩
    obtain ⟨hwe, ht⟩ | ⟨hwe, ht⟩ := Txn.eq_read_or_write h hs <;> rw [hwe, ht]
    · exact tableMnemonic_unmappedRead hu
    · exact tableMnemonic_unmappedWrite hu t.wdata
  · obtain ⟨hwe, ht⟩ | ⟨hwe, ht⟩ := Txn.eq_read_or_write h hs <;> rw [hwe, ht, ha]
    · exact tableMnemonic_read r
    · exact tableMnemonic_write r t.wdata

/-- The PORT rows ask for rk_sel and for the range of rk_idx (R79). -/
theorem portTableMnemonic_toByte (p : PortRequest) : portTableMnemonic p.toByte = some (decodePort p).mnemonic := by
  obtain ⟨sel, idx⟩ := p
  decide +revert

/-- A byte of 5 bits is the byte of a request. -/
theorem exists_toByte_of_lt {q : BitVec 8} (h : q.toNat < 32) : ∃ p : PortRequest, p.toByte = q := by
  refine ⟨⟨q.getLsbD 4, q.extractLsb' 0 4⟩, portByte_ext (PortRequest.toByte_sel _) ?_ (PortRequest.toByte_idx _)⟩
  rw [PortRequest.toByte_high, eq_comm, extractLsb'_eq_iff]
  change q.toNat / 32 % 8 = 0
  omega
end Sys2Proof

namespace Sys2Proof.Claims

/-- Settles O3: a record with a reserved bit set and a read with data fit no row, and every other record is the record of a transaction
(`tableMnemonic_toRecord`). -/
theorem decoderAgreesWithOpcodeTable : Obligations.DecoderAgreesWithOpcodeTable := by
  refine ⟨fun r => ?_, fun q hq => ?_⟩
  · by_cases hres : reservedZero r
    · obtain ⟨t, rfl⟩ := exists_toRecord_of_reservedZero hres
      cases hspell : t.spellable
      · rw [tableMnemonic_of_not_spellable hspell, decode_toRecord_of_not_spellable hspell]
      · rw [tableMnemonic_toRecord hspell, decode_toRecord hspell]
    · rw [tableMnemonic_of_reserved hres, decode_of_reserved hres]
  · obtain ⟨p, rfl⟩ := exists_toByte_of_lt hq
    rw [portTableMnemonic_toByte, decode_toByte]

end Sys2Proof.Claims

/-! PROOF. Records written out (spec/30_encoding.md R70, R71, R79): the layout of TXN64, bit by bit and as the statements spell it, the
records it refuses, and the words of the spec. -/

namespace Sys2Proof

/-! ### The layout of TXN64 -/

/-- A bit is a bit of each field that covers it. -/
theorem getLsbD_eq_extractLsb'_getLsbD {w : Nat} (x : BitVec w) {s l j : Nat} (hs : s ≤ j) (hl : j < s + l) :
    x.getLsbD j = (x.extractLsb' s l).getLsbD (j - s) := by
  simp [show j - s < l by omega, Nat.add_sub_cancel' hs]

theorem extractLsb'_ne_zero_iff {w : Nat} (x : BitVec w) (s l : Nat) :
    x.extractLsb' s l ≠ 0 ↔ ∃ j, s ≤ j ∧ j < s + l ∧ x.getLsbD j = true := by
  constructor
  · contrapose!
    intro h
    refine BitVec.eq_of_getLsbD_eq fun i hi => ?_
    simpa [hi] using h (s + i) (by omega) (by omega)
  · rintro ⟨j, hs, hl, hj⟩ h0
    rw [getLsbD_eq_extractLsb'_getLsbD x hs hl, h0] at hj
    simp at hj

theorem Txn.toRecord_getLsbD (t : Txn) {j : Nat} (hj : j < 64) : t.toRecord.getLsbD j =
    if j = 63 then t.we else if j = 62 then false else if 60 ≤ j then t.size.getLsbD (j - 60)
    else if 44 ≤ j then false else if 32 ≤ j then t.addr.getLsbD (j - 32) else t.wdata.getLsbD j := by
  split_ifs with h63 h62 h60 h44 h32
  · rw [h63, t.toRecord_we]
  · rw [getLsbD_eq_extractLsb'_getLsbD _ (s := 62) (l := 1) (by omega) (by omega), t.toRecord_reserved62]
    exact BitVec.getLsbD_zero
  · rw [getLsbD_eq_extractLsb'_getLsbD _ (l := 2) h60 (by omega), t.toRecord_size]
  · rw [getLsbD_eq_extractLsb'_getLsbD _ (l := 16) h44 (by omega), t.toRecord_reserved]
    exact BitVec.getLsbD_zero
  · rw [getLsbD_eq_extractLsb'_getLsbD _ (l := 12) h32 (by omega), t.toRecord_addr]
  · rw [getLsbD_eq_extractLsb'_getLsbD _ (l := 32) (Nat.zero_le j) (by omega), t.toRecord_wdata, Nat.sub_zero]

/-- A transaction's record is its control bits with ADDR and WDATA shifted to their places. -/
theorem Txn.toRecord_eq_or (t : Txn) {control : BitVec 64} (h : (Txn.mk t.we t.size 0 0).toRecord = control) :
    t.toRecord = control ||| (BitVec.ofNat 64 t.addr.toNat <<< 32) ||| t.wdata.setWidth 64 := by
  subst h
  refine BitVec.eq_of_getLsbD_eq fun j hj => ?_
  have haddr (h : 44 ≤ j) : t.addr.getLsbD (j - 32) = false := BitVec.getLsbD_of_ge _ _ (by omega)
  have hdata (h : 32 ≤ j) : t.wdata.getLsbD j = false := BitVec.getLsbD_of_ge _ _ h
  simp only [BitVec.getLsbD_or, BitVec.getLsbD_shiftLeft, BitVec.getLsbD_setWidth, BitVec.getLsbD_ofNat, BitVec.testBit_toNat,
    Txn.toRecord_getLsbD _ hj]
  split_ifs with h63 h62 h60 h44 h32
  · simp [haddr (by omega), hdata (by omega)]
  · simp [haddr (by omega), hdata (by omega)]
  · simp [haddr (by omega), hdata (by omega)]
  · simp [haddr h44, hdata (by omega)]
  · simp [hj, h32, show j - 32 < 64 by omega]
  · simp [hj, Nat.lt_of_not_le h32]

theorem Txn.toRecord_eq_or_of_no_data {t : Txn} (hw : t.wdata = 0) {control : BitVec 64}
    (h : (Txn.mk t.we t.size 0 0).toRecord = control) : t.toRecord = control ||| (BitVec.ofNat 64 t.addr.toNat <<< 32) := by
  rw [t.toRecord_eq_or h, hw]
  exact BitVec.or_zero

/-! ### Which records are refused (R71) -/

theorem reservedZero_iff (r : BitVec 64) :
    ¬reservedZero r ↔ r.getLsbD 62 = true ∨ ∃ j, 44 ≤ j ∧ j < 60 ∧ r.getLsbD j = true := by
  rw [not_and_or, ← ne_eq, ← ne_eq, extractLsb'_ne_zero_iff _ 44 16]
  refine or_congr_left ?_
  rw [extractLsb'_one]
  cases r.getLsbD 62 <;> decide

theorem spellable_toRecord_iff (t : Txn) :
    t.spellable = false ↔ t.toRecord.getLsbD 63 = false ∧ ∃ j, j < 32 ∧ t.toRecord.getLsbD j = true := by
  have hdata := extractLsb'_ne_zero_iff t.toRecord 0 32
  rw [t.toRecord_wdata] at hdata
  simp only [Nat.zero_le, true_and, Nat.zero_add] at hdata
  rw [t.spellable_eq_false_iff, t.toRecord_we, hdata]

/-- The decoder refuses a record for its reserved bits or as a read with data. -/
theorem decode_txn64_error_iff (r : BitVec 64) : (∃ e, decode (.txn64 r) = .error e) ↔
    r.getLsbD 62 = true ∨ (∃ j, 44 ≤ j ∧ j < 60 ∧ r.getLsbD j = true) ∨
      (r.getLsbD 63 = false ∧ ∃ j, j < 32 ∧ r.getLsbD j = true) := by
  rw [← or_assoc, ← reservedZero_iff]
  by_cases hres : reservedZero r
  · obtain ⟨t, rfl⟩ := exists_toRecord_of_reservedZero hres
    rw [or_iff_right (not_not.mpr hres), ← spellable_toRecord_iff]
    cases hspell : t.spellable
    · exact iff_of_true ⟨_, decode_toRecord_of_not_spellable hspell⟩ rfl
    · simp [decode_toRecord hspell]
  · exact iff_of_true ⟨_, decode_of_reserved hres⟩ (.inl hres)

end Sys2Proof

namespace Sys2Proof.Machine

/-- A step that takes a record the decoder refuses is refused with the decoder's reason. -/
theorem step_of_refused {s : State} {r : Record} {q : List Stimulus} {e : DecodeError} (hq : s.inbox = .record r :: q)
    (hd : decode r = .error e) : step s = .refused (.notATransaction e) := by
  simp [step, hq, hd]

end Sys2Proof.Machine

namespace Sys2Proof.Claims

open Sys2Proof.Machine

/-! ### The records of the statements -/

theorem writeRecord_eq (a : BitVec 12) (v : Word) : writeRecord a.toNat v = .txn64 (Txn.write a v).toRecord := by
  have hcontrol : (Txn.mk true 2 0 0).toRecord = 0xA000000000000000 := by decide
  rw [Txn.toRecord_eq_or (.write a v) hcontrol]
  rfl

theorem readRecord_eq (a : BitVec 12) : readRecord a.toNat = .txn64 (Txn.read a).toRecord := by
  have hcontrol : (Txn.mk false 2 0 0).toRecord = 0x2000000000000000 := by decide
  rw [Txn.toRecord_eq_or_of_no_data (t := .read a) rfl hcontrol]
  rfl

theorem decode_readRecord (r : Target) : decode (readRecord r.offset.toNat) = .ok r.readInstr := by
  rw [readRecord_eq, decode_read]

theorem decode_writeRecord (r : Target) (v : Word) : decode (writeRecord r.offset.toNat v) = .ok (r.writeInstr v) := by
  rw [writeRecord_eq, decode_write]

/-- Settles O4: the bits of each field (`Txn.toRecord_getLsbD`), the reading back, and the records that are refused
(`decode_txn64_error_iff`, `step_of_refused`). -/
theorem txnRecordLayoutAndRefusal : Obligations.TxnRecordLayoutAndRefusal := by
  refine ⟨fun t j hj => t.toRecord_getLsbD hj, fun t ht => Txn.ofRecord_toRecord ?_, by decide, by decide, decode_txn64_error_iff,
    fun s r q e => step_of_refused⟩
  simpa [Txn.spellable] using ht

/-- Settles O6: the request's byte is the one `toByte` writes, and an index past 10 leaves rk_valid at 0 (R186). -/
theorem portRequestEncoding : Obligations.PortRequestEncoding := by
  intro sel idx
  have hdecode : decode (.port (0#3 ++ BitVec.ofBool sel ++ idx)) = .ok (decodePort ⟨sel, idx⟩) := decode_toByte ⟨sel, idx⟩
  refine ⟨fun h => ?_, fun h => ⟨?_, fun s => ⟨_, rfl, ?_⟩⟩⟩
  · rw [hdecode, decodePort_of_le (p := ⟨sel, idx⟩) h]
  · rw [hdecode, decodePort_of_gt (p := ⟨sel, idx⟩) h]
  · simp [State.rkValid, portValid, show ¬idx.toNat ≤ 10 by omega]

/-- Settles O7: each word is the encoding of the instruction the spec lists it for. -/
theorem specWordsDecode : Obligations.SpecWordsDecode :=
  ⟨decode_encode (i := .rdKey 2) rfl, decode_encode (i := .wrKey 1 0x28AED2A6) rfl, decode_encode (i := .expandDec) rfl,
    decode_encode (i := .cmdIllegal 0x11) rfl, decode_encode (i := .wrStatus 8) rfl, decode_encode (i := .rdExpw 43) rfl,
    decode_encode (i := .rdRk 1 3) rfl, decode_encode (i := .wrDrk 10 3 0) rfl, decode_encode (i := .rdUnmapped 0x1B0) rfl,
    decode_encode (i := .anyMisaligned ⟨true, 0, 0x101, 0⟩) rfl, decode_encode (i := .anyBadsize ⟨false, 3, 0x018, 0⟩) rfl,
    decode_encode (i := .portDrk 10) rfl, decode_encode (i := .portBadidx false 11) rfl⟩

end Sys2Proof.Claims

/-! PROOF. What a step and a transaction answer: CMD writes that are illegal (spec/30_encoding.md R74, spec/42_commands.md R153), STATUS
writes (R75, R176), the response of every transaction (R70, R187), and what each kind of step is (R209). -/

namespace Sys2Proof.Machine

/-- A transaction is answered, and a rejection with RDATA = 0 (R187, R202). -/
theorem exec_response {i : Instr} (hi : i.isTransaction = true) (s : State) :
    ∃ t r, exec i s = .next t ∧ t.resp = some r ∧ (r.err = true → r.rdata = 0) := by
  obtain ⟨c, h⟩ | ⟨v, h⟩ | ⟨n, v, -, -, h⟩ | ⟨v, -, -, -, -, h⟩ | ⟨v, -, -, h⟩ | ⟨p, hp, -⟩ := exec_cases i s
  · exact ⟨_, _, h, raiseBusError_resp c s, fun _ => rfl⟩
  · exact ⟨_, _, h, respondOk_resp v s, fun he => Bool.noConfusion he⟩
  · exact ⟨_, _, h, respondOk_resp .., fun _ => rfl⟩
  · exact ⟨_, _, h, respondOk_resp .., fun _ => rfl⟩
  · exact ⟨_, _, h, respondOk_resp .., fun _ => rfl⟩
  · simp [hp] at hi

theorem exec_port_silent {i : Instr} (hi : i.isTransaction = false) (s : State) : ∃ t, exec i s = .next t ∧ t.resp = none := by
  cases i
  case portRk | portDrk | portBadidx => exact ⟨_, rfl, rfl⟩
  all_goals cases hi

theorem engineTurn_resp (s : State) : (engineTurn s).resp = none := by
  obtain ⟨-, h⟩ | ⟨-, -, h⟩ | ⟨-, -, h⟩ := engineTurn_cases s <;> rw [h] <;> rfl

theorem cmdWrite_rdata (v : Word) (s : State) : ∃ r, (cmdWrite v s).resp = some r ∧ r.rdata = 0 := by
  obtain ⟨-, h⟩ | ⟨-, -, h⟩ | ⟨-, -, -, h⟩ | ⟨-, -, -, h⟩ := cmdWrite_cases v s <;> rw [h] <;> exact ⟨_, rfl, rfl⟩

theorem exec_decodeCmd (v : Word) (s : State) : exec (decodeCmd v) s = .next (cmdWrite v s) := by
  obtain ⟨rfl, h⟩ | ⟨rfl, h⟩ | ⟨-, -, h⟩ := decodeCmd_cases v <;> rw [h] <;> rfl

/-- A register's write is answered with RDATA = 0. -/
theorem exec_writeInstr_rdata (r : Target) (v : Word) (s : State) :
    ∃ t p, exec (r.writeInstr v) s = .next t ∧ t.resp = some p ∧ p.rdata = 0 := by
  cases r with
  | key n =>
    obtain ⟨-, h⟩ | ⟨-, h⟩ := keyWrite_cases n v s
    · exact ⟨_, _, congrArg Host.Outcome.next h, rfl, rfl⟩
    · exact ⟨_, _, congrArg Host.Outcome.next h, rfl, rfl⟩
  | cmd =>
    obtain ⟨p, hp, hv⟩ := cmdWrite_rdata v s
    exact ⟨_, p, exec_decodeCmd v s, hp, hv⟩
  | status | expw | rk | drk => exact ⟨_, _, rfl, rfl, rfl⟩

theorem exec_write_rdata {x : Txn} (hx : x.we = true) (s : State) :
    ∃ t p, exec (decodeTxn x) s = .next t ∧ t.resp = some p ∧ p.rdata = 0 := by
  obtain ⟨-, h⟩ | ⟨-, -, h⟩ | ⟨-, -, -, h⟩ | ⟨r, -, -, h⟩ := decodeTxn_cases x <;> rw [h]
  · exact ⟨_, _, rfl, rfl, rfl⟩
  · exact ⟨_, _, rfl, rfl, rfl⟩
  · rw [hx]
    exact ⟨_, _, rfl, rfl, rfl⟩
  · rw [hx]
    exact exec_writeInstr_rdata r x.wdata s

end Sys2Proof.Machine

namespace Sys2Proof.Claims

open Sys2Proof.Machine

theorem exec_of_misaligned {t : Txn} (hal : t.addr.toNat % 4 ≠ 0) (s : State) : exec (decodeTxn t) s = .next (rejectedWith 1 s) := by
  obtain ⟨hdecode, hexec, -, -⟩ := misalignedAndBadSizeRejected t s
  rw [hdecode hal, hexec]

theorem exec_of_badsize {t : Txn} (hal : t.addr.toNat % 4 = 0) (hs : t.size ≠ 2) (s : State) :
    exec (decodeTxn t) s = .next (rejectedWith 2 s) := by
  obtain ⟨-, -, hdecode, hexec⟩ := misalignedAndBadSizeRejected t s
  rw [hdecode hal hs, hexec]

/-- Settles O24: an illegal value fails the second check of R150, and the first while BUSY = 1. -/
theorem cmdIllegalRejected : Obligations.CmdIllegalRejected := by
  intro v s h1 h2
  have hl : legalCommand v = false := Bool.eq_false_iff.mpr fun h => ((legalCommand_iff v).mp h).elim h1 h2
  refine ⟨?_, fun hb => ?_, fun hb => ?_⟩
  · rw [← decodeCmd_of_ne h1 h2]
    exact decode_writeRecord .cmd v
  · have hcmd : cmdWrite v s = raiseBusError .cmd s := by simp [cmdWrite, hb, hl]
    exact congrArg Host.Outcome.next (hcmd.trans (raiseBusError_eq_rejectedWith .cmd s))
  · exact congrArg Host.Outcome.next ((cmdWrite_of_busy hb v).trans (raiseBusError_eq_rejectedWith .busy s))

/-- Settles O27: bit 3 decides whether the error record is cleared, and a misaligned or badly sized write to STATUS never reaches it. -/
theorem wrStatusClearsError : Obligations.WrStatusClearsError := by
  intro v s
  refine ⟨decode_writeRecord .status v, fun hv => ?_, fun hv => ?_, fun z hz => ?_, fun z b hb => ?_⟩
  · exact congrArg (fun u => Host.Outcome.next (respondOk 0 u)) (if_pos hv)
  · exact congrArg (fun u => Host.Outcome.next (respondOk 0 u)) (if_neg (Bool.eq_false_iff.mp hv))
  · have hal : (0x014 : BitVec 12).toNat % 4 = 0 := by decide
    exact exec_of_badsize hal hz s
  · have hmis : b.toNat % 4 ≠ 0 := by rcases hb with rfl | rfl | rfl <;> decide
    exact exec_of_misaligned hmis s

/-- Settles O40: a transaction ends in a rejection or an answer (`exec_response`), a write's answer is 0 (`exec_write_rdata`), and the
port and the engine give none. -/
theorem everyTransactionResponds : Obligations.EveryTransactionResponds :=
  ⟨fun _ s hi => exec_response hi s, fun _ s hx => exec_write_rdata hx s, fun _ s hi => exec_port_silent hi s, engineTurn_resp⟩

/-- Settles O49: each is one arm of `step`, for the inbox it names. -/
theorem stepRunsDecodedInstruction : Obligations.StepRunsDecodedInstruction := by
  refine ⟨fun s r q i hq hd => ?_, fun s q hq => ?_, fun s q hq => ?_, fun s hq => ?_, fun s nbits w i hi => ?_⟩
  · simp [step, hq, hd, State.withInbox]
  · simp [step, hq, State.withInbox]
  · simp [step, hq, State.withInbox]
  · simp [step, hq]
  · have hd : decode (tableRecord nbits w) = .ok i := by
      unfold decodeTableWord at hi
      split at hi
      next hd => exact hd.trans (congrArg Except.ok (Option.some.inj hi))
      next => cases hi
    exact step_of_record hd s s.inbox

end Sys2Proof.Claims

/-! PROOF. Runs of host programs (spec/30_encoding.md R83, R84, R235): what an instruction does does not depend on what comes after it, so
a run goes through its records one by one; loading a key, waiting for the engine and the canonical sequence are such runs. -/

namespace Sys2Proof.Machine

/-! ### An instruction reads nothing of the inbox -/

theorem raiseBusError_withInbox (c : ErrCode) (s : State) (q : List Stimulus) :
    raiseBusError c (s.withInbox q) = (raiseBusError c s).withInbox q := by
  unfold raiseBusError recordError
  rw [withInbox_err]
  cases s.err <;> rfl

theorem keyWrite_withInbox (n : Fin 4) (v : Word) (s : State) (q : List Stimulus) :
    keyWrite n v (s.withInbox q) = (keyWrite n v s).withInbox q := by
  unfold keyWrite
  rw [withInbox_busy, raiseBusError_withInbox]
  cases s.busy <;> rfl

theorem cmdWrite_withInbox (v : Word) (s : State) (q : List Stimulus) : cmdWrite v (s.withInbox q) = (cmdWrite v s).withInbox q := by
  have hk : keyComplete (s.withInbox q) = keyComplete s := rfl
  unfold cmdWrite
  rw [withInbox_busy, hk, raiseBusError_withInbox, raiseBusError_withInbox, raiseBusError_withInbox]
  cases s.busy <;> cases legalCommand v <;> cases keyComplete s <;> rfl

theorem windowRead_withInbox (valid : Bool) (v : Word) (s : State) (q : List Stimulus) :
    windowRead valid v (s.withInbox q) = (windowRead valid v s).withInbox q := by
  unfold windowRead
  rw [withInbox_busy, raiseBusError_withInbox, raiseBusError_withInbox]
  cases s.busy <;> cases valid <;> rfl

theorem exec_withInbox {i : Instr} {s t : State} (h : exec i s = .next t) (q : List Stimulus) :
    exec i (s.withInbox q) = .next (t.withInbox q) := by
  cases i <;> cases h
  case anyMisaligned | anyBadsize | rdCmd | wrExpw | wrRk | wrDrk | rdUnmapped | wrUnmapped =>
    exact congrArg Host.Outcome.next (raiseBusError_withInbox _ s q)
  case rdKey | rdStatus | portRk | portDrk | portBadidx => rfl
  case wrKey n v => exact congrArg Host.Outcome.next (keyWrite_withInbox n v s q)
  case expandEnc | expandDec | cmdIllegal => exact congrArg Host.Outcome.next (cmdWrite_withInbox _ s q)
  case wrStatus v =>
    rw [exec, execWrStatus]
    cases errClr v <;> rfl
  case rdExpw | rdRk | rdDrk => exact congrArg Host.Outcome.next (windowRead_withInbox _ _ s q)

/-- A run takes a record by running what it decodes to. -/
theorem run_succ_of_record {r : Record} {i : Instr} {s t : State} (hd : decode r = .ok i) (he : exec i s = .next t) (n : Nat)
    (q : List Stimulus) : Sys2Proof.core.run (n + 1) (s.withInbox (.record r :: q)) = Sys2Proof.core.run n (t.withInbox q) :=
  run_succ_of_step n ((step_of_record hd s q).trans (exec_withInbox he q))

/-! ### Loading a key (R84) -/

theorem decode_wr (r : Target) (v : Word) : decode (asmRecord (.wr r v)) = .ok (r.writeInstr v) := decode_write r v

theorem decode_rd (r : Target) : decode (asmRecord (.rd r)) = .ok r.readInstr := decode_read r

theorem run_succ_of_keyWrite {s : State} (hb : s.busy = false) (m : Fin 4) (v : Word) (n : Nat) (q : List Stimulus) :
    Sys2Proof.core.run (n + 1) (s.withInbox (.record (asmRecord (.wr (.key m) v)) :: q)) =
      Sys2Proof.core.run n ((respondOk 0 (invalidate (storeKey m v s))).withInbox q) :=
  run_succ_of_record (decode_wr (.key m) v) (congrArg Host.Outcome.next (if_neg (Bool.eq_false_iff.mp hb))) n q

theorem pseudoStimuli_loadkey (k : KeyBytes) : pseudoStimuli (.loadkey k) =
    [.record (asmRecord (.wr (.key 0) (keyRegisters k)[0])), .record (asmRecord (.wr (.key 1) (keyRegisters k)[1])),
      .record (asmRecord (.wr (.key 2) (keyRegisters k)[2])), .record (asmRecord (.wr (.key 3) (keyRegisters k)[3]))] := rfl

/-- Four writes replace the whole key. -/
theorem key_set_all (key new : Vector Word 4) : (((key.set 0 new[0]).set 1 new[1]).set 2 new[2]).set 3 new[3] = new := by
  ext i hi
  match i, hi with
  | 0, _ | 1, _ | 2, _ | 3, _ => simp

theorem keymaskWith_all (m : BitVec 4) : keymaskWith (keymaskWith (keymaskWith (keymaskWith m 0) 1) 2) 3 = 0xF := by
  decide +revert

/-- `loadkey` on an idle block leaves the key and a full KEYMASK. -/
theorem run_loadkey {s : State} (hb : s.busy = false) (k : KeyBytes) (q : List Stimulus) :
    ∃ t : State, Sys2Proof.core.run 4 (s.withInbox (pseudoStimuli (.loadkey k) ++ q)) = .next (t.withInbox q) ∧
      t.key = keyRegisters k ∧ t.keymask = 0xF ∧ t.busy = false ∧ t.err = s.err := by
  simp only [pseudoStimuli_loadkey, List.cons_append, List.nil_append]
  have hidle {u : State} (hu : u.busy = false) (m : Fin 4) (v : Word) : (respondOk 0 (invalidate (storeKey m v u))).busy = false := hu
  rw [run_succ_of_keyWrite hb, run_succ_of_keyWrite (hidle hb _ _), run_succ_of_keyWrite (hidle (hidle hb _ _) _ _),
    run_succ_of_keyWrite (hidle (hidle (hidle hb _ _) _ _) _ _)]
  exact ⟨_, rfl, key_set_all s.key (keyRegisters k), keymaskWith_all s.keymask, hb, rfl⟩

/-! ### The engine's turns (R155) -/

theorem engineTurn_of_counting {s : State} (hb : s.busy = true) (hc : 1 < s.cnt) :
    engineTurn s = { s.silent with cnt := s.cnt - 1 } := by
  rw [engineTurn, if_pos hb, if_neg (by omega)]

theorem engineTurn_of_expired {s : State} (hb : s.busy = true) (hc : s.cnt ≤ 1) : engineTurn s = complete s := by
  rw [engineTurn, if_pos hb, if_pos hc]

/-- An engine's turn does not read the response. -/
theorem engineTurn_respondOk (v : Word) (s : State) : engineTurn (respondOk v s) = engineTurn s := by
  unfold engineTurn
  rw [respondOk_busy, respondOk_cnt]
  rfl

theorem busy_of_turns_lt {m : Nat} {s : State} (hb : s.busy = true) (hm : m < s.cnt) : (engineTurn^[m] s).busy = true := by
  induction m generalizing s with
  | zero => exact hb
  | succ m ih =>
    rw [Function.iterate_succ_apply, engineTurn_of_counting hb (by omega)]
    exact ih (s := { s.silent with cnt := s.cnt - 1 }) hb (by dsimp only; omega)

/-- After CNT turns the engine has completed, and later turns change nothing. -/
theorem turns_eq_complete {n : Nat} {s : State} (hb : s.busy = true) (hn : 1 ≤ n) (hc : s.cnt ≤ n) :
    engineTurn^[n] s = complete s := by
  induction n generalizing s with
  | zero => omega
  | succ n ih =>
    rw [Function.iterate_succ_apply]
    by_cases h1 : s.cnt ≤ 1
    · rw [engineTurn_of_expired hb h1]
      exact Function.iterate_fixed (engineTurn_of_idle rfl) n
    · rw [engineTurn_of_counting hb (by omega)]
      exact ih (s := { s.silent with cnt := s.cnt - 1 }) hb (by omega) (by dsimp only; omega)

/-! ### The wait loop (R84) -/

theorem statusWord_busy (s : State) : (statusWord s).getLsbD 0 = s.busy := by
  simp only [statusWord, BitVec.getLsbD_setWidth, BitVec.getLsbD_append]
  simp

theorem statusWord_err (s : State) : (statusWord s).getLsbD 3 = s.err := by
  simp only [statusWord, BitVec.getLsbD_setWidth, BitVec.getLsbD_append]
  simp

theorem exec_rdStatus (s : State) : exec .rdStatus s = .next (respondOk (statusWord s) s) := rfl

theorem waitStimuli_succ (n : Nat) : waitStimuli (n + 1) = .record (asmRecord (.rd .status)) :: .clock :: waitStimuli n := rfl

theorem waitStimuli_succ_append (n : Nat) : waitStimuli (n + 1) = waitStimuli n ++ [.record (asmRecord (.rd .status)), .clock] := by
  induction n with
  | zero => rfl
  | succ n ih => exact congrArg (fun l => _ :: _ :: l) ih

/-- Each turn of the loop is a turn of the engine. -/
theorem run_waits (n m : Nat) (s : State) (q : List Stimulus) :
    Sys2Proof.core.run (2 * n + m) (s.withInbox (waitStimuli n ++ q)) = Sys2Proof.core.run m ((engineTurn^[n] s).withInbox q) := by
  induction n generalizing s with
  | zero => rw [Nat.mul_zero, Nat.zero_add]; rfl
  | succ n ih =>
    rw [show 2 * (n + 1) + m = 2 * n + m + 1 + 1 by omega, waitStimuli_succ, List.cons_append, List.cons_append,
      run_succ_of_record (decode_rd .status) (exec_rdStatus s), run_succ_of_step _ (step_of_clock _ _), engineTurn_withInbox,
      engineTurn_respondOk, ih, Function.iterate_succ_apply]

/-- One more poll answers the STATUS word. -/
theorem run_poll (s : State) (q : List Stimulus) :
    Sys2Proof.core.run 1 (s.withInbox (.record (asmRecord (.rd .status)) :: q)) = .next ((respondOk (statusWord s) s).withInbox q) :=
  run_succ_of_record (decode_rd .status) (exec_rdStatus s) 0 q

/-! ### The canonical sequence (R235) -/

theorem cmdWrite_of_accepted {v : Word} {s : State} (hb : s.busy = false) (hl : legalCommand v = true) (hk : s.keymask = 0xF) :
    cmdWrite v s = respondOk 0 (invalidate (startEngine (v.extractLsb' 0 2) s)) := by
  simp [cmdWrite, hb, hl, keyComplete, hk]

/-- The canonical sequence on an idle block: the key is loaded, the command accepted, and the engine completes before the check. -/
theorem run_canonical {s : State} (hb : s.busy = false) (k : KeyBytes) {v : Word} (hl : legalCommand v = true) {n : Nat}
    (hn : commandLatency (v.extractLsb' 0 2) ≤ n) :
    ∃ t : State, Sys2Proof.core.run (2 * n + 6) (s.withInbox (pseudoStimuli (.loadkey k) ++ [.record (asmRecord (.wr .cmd v))] ++
        waitStimuli n ++ pseudoStimuli .check)) = .next (respondOk (statusWord t) t) ∧
      t.busy = false ∧ t.encValid = true ∧ t.decValid = (v.extractLsb' 0 2 == 2) ∧ t.w = some (expandedRegisters k) ∧
      keyBytes t.key = k ∧ t.keymask = 0xF ∧ t.err = s.err ∧ t.inbox = [] := by
  simp only [List.append_assoc]
  obtain ⟨u, hload, hkey, hmask, hbu, herr⟩ :=
    run_loadkey hb k ([.record (asmRecord (.wr .cmd v))] ++ (waitStimuli n ++ pseudoStimuli .check))
  have hcmd : exec (Target.cmd.writeInstr v) u = .next (cmdWrite v u) := exec_decodeCmd v u
  have haccepted := cmdWrite_of_accepted hbu hl hmask
  have hcomplete : engineTurn^[n] (cmdWrite v u) = complete (cmdWrite v u) := by
    rw [haccepted]
    exact turns_eq_complete rfl ((one_le_commandLatency _).trans hn) hn
  have hkb : keyBytes u.key = k := by rw [hkey, keyBytes_keyRegisters]
  refine ⟨(complete (cmdWrite v u)).withInbox [], ?_, ?_⟩
  · rw [show 2 * n + 6 = 4 + (2 * n + 1 + 1) by omega, run_add_of_run 4 _ hload, List.singleton_append,
      run_succ_of_record (decode_wr .cmd v) hcmd, run_waits, hcomplete]
    exact run_poll _ []
  · rw [haccepted]
    exact ⟨rfl, rfl, rfl, congrArg (fun b => some (expandedRegisters b)) hkb, hkb, hmask, herr, rfl⟩

end Sys2Proof.Machine

namespace Sys2Proof.Claims

open Sys2Proof.Machine

/-- Settles O46: a turn of the loop is a turn of the engine (`run_waits`), which completes at turn CNT and not before. -/
theorem waitLoopEnds : Obligations.WaitLoopEnds := by
  refine ⟨fun m s hb hc => ?_, fun n s hb h1 hn => ?_, fun dec k n s hb herr hn => ?_⟩
  · rw [waitStimuli_succ_append, run_waits, run_poll]
    refine ⟨_, _, rfl, rfl, ?_⟩
    change (statusWord (engineTurn^[m] s)).getLsbD 0 = _
    rw [statusWord_busy]
    by_cases hm : m < s.cnt
    · rw [busy_of_turns_lt hb hm, decide_eq_true hm]
    · rw [turns_eq_complete hb (by omega) (by omega), decide_eq_false hm, complete_busy]
  · have hrun := run_waits n 0 s []
    rw [List.append_nil, turns_eq_complete hb h1 hn] at hrun
    exact ⟨_, hrun, rfl, rfl, rfl, rfl, rfl, rfl, rfl, rfl, rfl, rfl⟩
  · have hcheck {t : State} (ht : t.err = s.err) : checkHolds ⟨false, statusWord t⟩ = true := by
      rw [checkHolds, statusWord_err, ht, herr, Bool.not_false]
    cases dec
    · obtain ⟨t, hrun, hbt, henc, hdec, hw, hk, hmask, herrt, hq⟩ := run_canonical hb k (v := 1) (n := n) rfl hn
      exact ⟨_, _, hrun, rfl, hcheck herrt, hbt, henc, hdec, hw, hk, hmask, hq⟩
    · obtain ⟨t, hrun, hbt, henc, hdec, hw, hk, hmask, herrt, hq⟩ := run_canonical hb k (v := 2) (n := n) rfl hn
      exact ⟨_, _, hrun, rfl, hcheck herrt, hbt, henc, hdec, hw, hk, hmask, hq⟩

end Sys2Proof.Claims

/-! PROOF. What the assembler's forms spell (spec/30_encoding.md R78, R83, R84): each form is the record of a transaction, which
`Txn.toRecord_eq_or` writes as its control bits, ADDR and WDATA. -/

namespace Sys2Proof.Claims

open Sys2Proof.Machine

theorem asmRecord_rd (r : Target) : asmRecord (.rd r) = readRecord r.offset.toNat := (readRecord_eq r.offset).symm

theorem asmRecord_wr (r : Target) (v : Word) : asmRecord (.wr r v) = writeRecord r.offset.toNat v := (writeRecord_eq r.offset v).symm

/-- A sized read is its size in bits 61:60 beside ADDR. -/
theorem asmRecord_rdSized {half : Bool} {control : BitVec 64} (h : (Txn.mk false (sizedCode half) 0 0).toRecord = control) (r : Target) :
    asmRecord (.rdSized half r) = .txn64 (control ||| (BitVec.ofNat 64 r.offset.toNat <<< 32)) :=
  congrArg Record.txn64 (Txn.toRecord_eq_or_of_no_data (t := { Txn.read r.offset with size := sizedCode half }) rfl h)

theorem asmRecord_wrSized {half : Bool} {control : BitVec 64} (h : (Txn.mk true (sizedCode half) 0 0).toRecord = control) (r : Target)
    (v : Word) :
    asmRecord (.wrSized half r v) = .txn64 (control ||| (BitVec.ofNat 64 r.offset.toNat <<< 32) ||| v.setWidth 64) :=
  congrArg Record.txn64 (Txn.toRecord_eq_or { Txn.write r.offset v with size := sizedCode half } h)

/-- A record whose SIZE is not 2 decodes to a transaction that is rejected with ERR_SIZE (R55). -/
theorem decode_exec_of_badsize {t : Txn} (hspell : t.spellable = true) (hal : t.addr.toNat % 4 = 0) (hs : t.size ≠ 2) (s : State) :
    ∃ i, decode (.txn64 t.toRecord) = .ok i ∧ exec i s = .next (rejectedWith 2 s) :=
  ⟨decodeTxn t, decode_toRecord hspell, exec_of_badsize hal hs s⟩

theorem sizedCode_ne_two (half : Bool) : sizedCode half ≠ 2 := by cases half <;> decide

/-- Register n of a key packs bytes 4n to 4n + 3 (R21). -/
theorem keyRegisters_bytes (k : KeyBytes) :
    (keyRegisters k)[0] = pack32 #v[k[0], k[1], k[2], k[3]] ∧ (keyRegisters k)[1] = pack32 #v[k[4], k[5], k[6], k[7]] ∧
    (keyRegisters k)[2] = pack32 #v[k[8], k[9], k[10], k[11]] ∧ (keyRegisters k)[3] = pack32 #v[k[12], k[13], k[14], k[15]] := by
  refine ⟨?_, ?_, ?_, ?_⟩ <;> rw [keyRegisters_getElem] <;> rfl

theorem waitStimuli_eq_flatten (n : Nat) : waitStimuli n = (List.replicate n [.record (readRecord 0x014), .clock]).flatten := by
  induction n with
  | zero => rfl
  | succ n ih =>
    rw [waitStimuli_succ, ih, asmRecord_rd]
    rfl

theorem pseudoStimuli_check : pseudoStimuli .check = [.record (readRecord 0x014)] :=
  congrArg (fun r => [Stimulus.record r]) (asmRecord_rd .status)

/-- Settles O60: the forms are records (`asmRecord_rd` and the lemmas beside it), the sized ones decode to ANY_BADSIZE, and `loadkey` runs
as `run_loadkey` says. -/
theorem assemblerForms : Obligations.AssemblerForms := by
  refine ⟨asmRecord_rd, asmRecord_wr, fun a => (readRecord_eq a).symm, fun a v => (writeRecord_eq a v).symm, fun k => ?_, fun t v => ?_,
    fun half t v s => ?_, fun k => ?_, fun k s hb => ?_, ?_, ?_, ?_, pseudoStimuli_check, pseudoStimuli_check, fun s => ?_,
    fun k p n => ?_⟩
  · decide +revert
  · exact ⟨asmRecord_rdSized (by decide) t, asmRecord_rdSized (by decide) t, asmRecord_wrSized (by decide) t v,
      asmRecord_wrSized (by decide) t v⟩
  · obtain ⟨i, hi, hexec⟩ := decode_exec_of_badsize (t := { Txn.read t.offset with size := sizedCode half }) rfl
      t.offset_toNat_mod_four (sizedCode_ne_two half) s
    obtain ⟨j, hj, hexec'⟩ := decode_exec_of_badsize (t := { Txn.write t.offset v with size := sizedCode half }) rfl
      t.offset_toNat_mod_four (sizedCode_ne_two half) s
    exact ⟨i, j, hi, hexec, hj, hexec'⟩
  · obtain ⟨h0, h1, h2, h3⟩ := keyRegisters_bytes k
    rw [pseudoStimuli_loadkey, h0, h1, h2, h3, asmRecord_wr, asmRecord_wr, asmRecord_wr, asmRecord_wr]
    rfl
  · obtain ⟨t, hrun, hkey, hmask, -, -⟩ := run_loadkey hb k []
    rw [List.append_nil] at hrun
    exact ⟨_, hrun, (congrArg keyBytes hkey).trans (keyBytes_keyRegisters k), hmask⟩
  · exact congrArg (fun r => [Stimulus.record r]) (asmRecord_wr .cmd 1)
  · exact congrArg (fun r => [Stimulus.record r]) (asmRecord_wr .cmd 2)
  · exact congrArg (fun r => [Stimulus.record r]) (asmRecord_wr .status 8)
  · exact ⟨_, _, exec_rdStatus s, rfl, statusWord_busy s, congrArg Bool.not (statusWord_err s)⟩
  · rw [canonicalSequence, waitStimuli_eq_flatten, pseudoStimuli_check]

end Sys2Proof.Claims

/-! PROOF. Arithmetic in GF(2^8) (spec/40_transforms.md R100 to R103). `gmul` and the carry-less product are linear over XOR in each
operand, so what holds of single bits holds of every operand; on a single bit `gmul` is an iterate of `xtime`. -/

namespace Sys2Proof

open BitVec

/-- What holds of 0 and of each single bit, and of the XOR of two vectors it holds of, holds of every bit vector. -/
theorem xor_induction {w : Nat} {P : BitVec w → Prop} (zero : P 0#w) (bit : ∀ i < w, P (twoPow w i))
    (xor : ∀ x y, P x → P y → P (x ^^^ y)) (x : BitVec w) : P x := by
  have low (n : Nat) (hn : n ≤ w) : P ((x.setWidth n).setWidth w) := by
    induction n with
    | zero =>
      rw [show (x.setWidth 0).setWidth w = 0#w by ext; simp]
      exact zero
    | succ n ih =>
      cases hx : x.getLsbD n with
      | false =>
        rw [setWidth_setWidth_succ_eq_setWidth_setWidth_of_getLsbD_false hx]
        exact ih (by omega)
      | true =>
        have hsplit : (x.setWidth (n + 1)).setWidth w = (x.setWidth n).setWidth w ^^^ twoPow w n := by
          rw [setWidth_setWidth_succ_eq_setWidth_setWidth_or_twoPow_of_getLsbD_true hx]
          ext i hi
          obtain rfl | h := eq_or_ne i n <;> simp [*, Ne.symm]
        rw [hsplit]
        exact xor _ _ (ih (by omega)) (bit n (by omega))
  simpa using low w le_rfl

/-- `f` turns XOR into XOR, as every map linear over GF(2) does (R100). -/
def XorLinear {w v : Nat} (f : BitVec w → BitVec v) : Prop := ∀ x y, f (x ^^^ y) = f x ^^^ f y

theorem XorLinear.map_zero {w v : Nat} {f : BitVec w → BitVec v} (hf : XorLinear f) : f 0#w = 0#v := by
  have h := hf 0#w 0#w
  rwa [BitVec.xor_self, BitVec.xor_self] at h

/-- Linear functions that agree on each single bit are equal. -/
theorem XorLinear.ext {w v : Nat} {f g : BitVec w → BitVec v} (hf : XorLinear f) (hg : XorLinear g)
    (h : ∀ i < w, f (twoPow w i) = g (twoPow w i)) (x : BitVec w) : f x = g x := by
  induction x using xor_induction with
  | zero => rw [hf.map_zero, hg.map_zero]
  | bit i hi => exact h i hi
  | xor x y hx hy => rw [hf, hg, hx, hy]

/-- The coefficient `c` of GF(2) times the polynomial `a`. -/
def scale {w : Nat} (c : Bool) (a : BitVec w) : BitVec w := if c then a else 0#w

theorem scale_xor_left {w : Nat} (c d : Bool) (a : BitVec w) : scale (c ^^ d) a = scale c a ^^^ scale d a := by
  cases c <;> cases d <;> simp [scale]

theorem scale_xor_right {w : Nat} (c : Bool) (a b : BitVec w) : scale c (a ^^^ b) = scale c a ^^^ scale c b := by
  cases c <;> simp [scale]

theorem XorLinear.map_scale {w v : Nat} {f : BitVec w → BitVec v} (hf : XorLinear f) (c : Bool) (a : BitVec w) :
    f (scale c a) = scale c (f a) := by
  cases c
  · exact hf.map_zero
  · rfl

/-- A conditional XOR, the step of each multiplication loop, adds a scaled term. -/
theorem ite_xor_eq_xor_scale {w : Nat} (c : Bool) (p a : BitVec w) : (if c then p ^^^ a else p) = p ^^^ scale c a := by
  cases c <;> simp [scale]

end Sys2Proof

namespace Sys2Proof.Machine

open BitVec

/-! ### xtime and gmul are linear over XOR -/

theorem xtime_eq (a : Byte) : xtime a = a <<< 1 ^^^ scale (a.getLsbD 7) 0x1b := ite_xor_eq_xor_scale _ _ _

theorem xtime_xor (a b : Byte) : xtime (a ^^^ b) = xtime a ^^^ xtime b := by
  simp only [xtime_eq, shiftLeft_xor_distrib, getLsbD_xor, scale_xor_left]
  ac_rfl

theorem xorLinear_xtime : XorLinear xtime := xtime_xor

theorem gmulLoop_succ (n : Nat) (p a b : Byte) :
    gmulLoop (n + 1) p a b = gmulLoop n (p ^^^ scale (b.getLsbD 0) a) (xtime a) (b >>> 1) := by
  rw [gmulLoop, ite_xor_eq_xor_scale]

theorem gmulLoop_xor_left (n : Nat) (p q a b c : Byte) :
    gmulLoop n (p ^^^ q) (a ^^^ b) c = gmulLoop n p a c ^^^ gmulLoop n q b c := by
  induction n generalizing p q a b c with
  | zero => rfl
  | succ n ih =>
    simp only [gmulLoop_succ, ← ih, xtime_xor, scale_xor_right]
    ac_rfl

theorem gmulLoop_xor_right (n : Nat) (p q a b c : Byte) :
    gmulLoop n (p ^^^ q) a (b ^^^ c) = gmulLoop n p a b ^^^ gmulLoop n q a c := by
  induction n generalizing p q a b c with
  | zero => rfl
  | succ n ih =>
    simp only [gmulLoop_succ, ← ih, ushiftRight_xor_distrib, getLsbD_xor, scale_xor_left]
    ac_rfl

theorem gmul_xor_left (a b c : Byte) : gmul (a ^^^ b) c = gmul a c ^^^ gmul b c := gmulLoop_xor_left 8 0 0 a b c

theorem gmul_xor_right (a b c : Byte) : gmul a (b ^^^ c) = gmul a b ^^^ gmul a c := gmulLoop_xor_right 8 0 0 a b c

theorem xorLinear_gmul_left (c : Byte) : XorLinear (gmul · c) := fun a b => gmul_xor_left a b c

theorem xorLinear_gmul_right (a : Byte) : XorLinear (gmul a) := gmul_xor_right a

theorem zero_gmul (a : Byte) : gmul 0#8 a = 0#8 := (xorLinear_gmul_left a).map_zero

theorem gmul_zero (a : Byte) : gmul a 0#8 = 0#8 := (xorLinear_gmul_right a).map_zero

/-! ### The ring laws (R103) -/

theorem gmulLoop_xtime (n : Nat) (p a b : Byte) : gmulLoop n (xtime p) (xtime a) b = xtime (gmulLoop n p a b) := by
  induction n generalizing p a b with
  | zero => rfl
  | succ n ih => rw [gmulLoop_succ, ← xorLinear_xtime.map_scale, ← xtime_xor, ih, gmulLoop_succ]

theorem xtime_gmul (a b : Byte) : gmul (xtime a) b = xtime (gmul a b) := gmulLoop_xtime 8 0 a b

theorem xtime_iterate_gmul (i : Nat) (a b : Byte) : gmul (xtime^[i] a) b = xtime^[i] (gmul a b) :=
  Function.Semiconj.iterate_right (f := (gmul · b)) (xtime_gmul · b) i a

theorem xtime_iterate_one {i : Nat} (hi : i < 8) : xtime^[i] 1 = twoPow 8 i := by
  interval_cases i <;> rfl

theorem gmul_twoPow (a : Byte) {i : Nat} (hi : i < 8) : gmul a (twoPow 8 i) = xtime^[i] a := by
  interval_cases i <;> simp [gmul, gmulLoop]

theorem one_gmul (a : Byte) : gmul 1 a = a := by
  refine (xorLinear_gmul_right 1).ext (g := id) (fun _ _ => rfl) (fun i hi => ?_) a
  rw [gmul_twoPow 1 hi, xtime_iterate_one hi, id]

theorem twoPow_gmul {i : Nat} (hi : i < 8) (a : Byte) : gmul (twoPow 8 i) a = xtime^[i] a := by
  rw [← xtime_iterate_one hi, xtime_iterate_gmul, one_gmul]

theorem gmul_comm (a b : Byte) : gmul a b = gmul b a := by
  refine (xorLinear_gmul_right a).ext (xorLinear_gmul_left a) (fun i hi => ?_) b
  rw [gmul_twoPow a hi, twoPow_gmul hi]

theorem gmul_one (a : Byte) : gmul a 1 = a := (gmul_comm a 1).trans (one_gmul a)

theorem gmul_assoc (a b c : Byte) : gmul a (gmul b c) = gmul (gmul a b) c := by
  induction a using xor_induction with
  | zero => rw [zero_gmul, zero_gmul, zero_gmul]
  | bit i hi => rw [twoPow_gmul hi, twoPow_gmul hi, xtime_iterate_gmul]
  | xor x y hx hy => rw [gmul_xor_left, gmul_xor_left, gmul_xor_left, hx, hy]

end Sys2Proof.Machine

namespace Sys2Proof.Claims

open Sys2Proof.Machine BitVec

/-! ### The carry-less product and its remainder (R100, R101) -/

theorem foldl_xor_distrib {w : Nat} (l : List Nat) (p q : BitVec w) (s t : Nat → BitVec w) :
    l.foldl (fun r i => r ^^^ (s i ^^^ t i)) (p ^^^ q) =
      l.foldl (fun r i => r ^^^ s i) p ^^^ l.foldl (fun r i => r ^^^ t i) q := by
  induction l generalizing p q with
  | nil => rfl
  | cons i l ih =>
    simp only [List.foldl_cons, ← ih]
    congr 1
    ac_rfl

theorem polyMul_eq (a b : BitVec 16) :
    polyMul a b = (List.range 8).foldl (fun r i => r ^^^ scale (b.getLsbD i) (a <<< i)) 0 := by
  simp only [polyMul, ite_xor_eq_xor_scale]

theorem polyMul_xor_left (a b c : BitVec 16) : polyMul (a ^^^ b) c = polyMul a c ^^^ polyMul b c := by
  simp only [polyMul_eq, shiftLeft_xor_distrib, scale_xor_right]
  exact foldl_xor_distrib _ 0 0 _ _

theorem polyMul_xor_right (a b c : BitVec 16) : polyMul a (b ^^^ c) = polyMul a b ^^^ polyMul a c := by
  simp only [polyMul_eq, getLsbD_xor, scale_xor_left]
  exact foldl_xor_distrib _ 0 0 _ _

theorem zero_polyMul (a : BitVec 16) : polyMul 0#16 a = 0#16 :=
  XorLinear.map_zero (f := (polyMul · a)) fun b c => polyMul_xor_left b c a

theorem polyMul_zero (a : BitVec 16) : polyMul a 0#16 = 0#16 := XorLinear.map_zero (polyMul_xor_right a)

/-- `r` is `x` reduced modulo 0x11b, with a quotient of degree below 7. -/
def ReducesTo (x : BitVec 16) (r : Byte) : Prop :=
  ∃ q : BitVec 16, q.toNat < 128 ∧ x = r.setWidth 16 ^^^ polyMul 0x11b q

theorem reducesTo_zero : ReducesTo 0#16 0#8 := ⟨0, by decide⟩

theorem ReducesTo.xor {x y : BitVec 16} {r s : Byte} (hx : ReducesTo x r) (hy : ReducesTo y s) :
    ReducesTo (x ^^^ y) (r ^^^ s) := by
  obtain ⟨q, hq, rfl⟩ := hx
  obtain ⟨t, ht, rfl⟩ := hy
  refine ⟨q ^^^ t, ?_, ?_⟩
  · rw [toNat_xor]
    exact Nat.xor_lt_two_pow (n := 7) hq ht
  · rw [polyMul_xor_right, setWidth_xor]
    ac_rfl

/-- The 64 products of two powers of x, each with its quotient. -/
theorem exists_quotient_twoPow : ∀ i < 8, ∀ j < 8, ∃ q < 128,
    polyMul ((twoPow 8 i).setWidth 16) ((twoPow 8 j).setWidth 16) =
      (gmul (twoPow 8 i) (twoPow 8 j)).setWidth 16 ^^^ polyMul 0x11b (BitVec.ofNat 16 q) := by
  decide +kernel

theorem reducesTo_polyMul_twoPow {i j : Nat} (hi : i < 8) (hj : j < 8) :
    ReducesTo (polyMul ((twoPow 8 i).setWidth 16) ((twoPow 8 j).setWidth 16)) (gmul (twoPow 8 i) (twoPow 8 j)) := by
  obtain ⟨q, hq, h⟩ := exists_quotient_twoPow i hi j hj
  exact ⟨BitVec.ofNat 16 q, (Nat.mod_le _ _).trans_lt hq, h⟩

/-- Both products are linear in each operand, so a power of x in place of each suffices. -/
theorem reducesTo_polyMul (a b : Byte) : ReducesTo (polyMul (a.setWidth 16) (b.setWidth 16)) (gmul a b) := by
  induction a using xor_induction with
  | zero =>
    rw [setWidth_zero, zero_polyMul, zero_gmul]
    exact reducesTo_zero
  | xor x y hx hy =>
    rw [setWidth_xor, polyMul_xor_left, gmul_xor_left]
    exact hx.xor hy
  | bit i hi =>
    induction b using xor_induction with
    | zero =>
      rw [setWidth_zero, polyMul_zero, gmul_zero]
      exact reducesTo_zero
    | xor x y hx hy =>
      rw [setWidth_xor, polyMul_xor_right, gmul_xor_right]
      exact hx.xor hy
    | bit j hj => exact reducesTo_polyMul_twoPow hi hj

/-- Settles O9: `reducesTo_polyMul`, by linearity from the powers of x. -/
theorem gmulIsPolynomialProduct : Obligations.GmulIsPolynomialProduct := reducesTo_polyMul

/-- Settles O10: distributivity is the linearity of the loop; the other laws follow from it and from `gmul` by a single bit. -/
theorem gmulLaws : Obligations.GmulLaws :=
  ⟨fun x => ⟨gmul_one x, one_gmul x, gmul_zero x, zero_gmul x⟩, gmul_comm, gmul_assoc, gmul_xor_right⟩

/-- Settles O8: the shift doubles modulo 256, and overflows exactly when bit 7 is set. -/
theorem xtimeRule : Obligations.XtimeRule := by
  have hshift (a : Byte) : (a <<< 1).toNat = 2 * a.toNat % 256 := by
    rw [toNat_shiftLeft, Nat.shiftLeft_eq, Nat.mul_comm]
  refine ⟨fun a => ⟨fun h => ?_, fun h => ?_⟩, by decide⟩
  · rw [xtime, if_pos h, toNat_xor, hshift]
    rfl
  · have hlt : a.toNat < 128 := by
      have hmsb := msb_eq_false_iff_two_mul_lt.mp (msb_eq_getLsbD_last a ▸ h)
      omega
    rw [xtime, if_neg (h ▸ Bool.false_ne_true), hshift, Nat.mod_eq_of_lt (by omega)]

end Sys2Proof.Claims

/-! PROOF. The column mixes (spec/40_transforms.md R110, R111). Both are linear over XOR, so they undo each other on every column
because they do on the 32 columns of a single bit. -/

namespace Sys2Proof.Machine

open BitVec

theorem unpack32_xor (v w : Word) : unpack32 (v ^^^ w) = xorWord (unpack32 v) (unpack32 w) := by
  apply keyWord_ext <;> simp [xorWord_getElem, extractLsb'_xor]

theorem pack32_xorWord (a b : KeyWord) : pack32 (xorWord a b) = pack32 a ^^^ pack32 b := by
  rw [← unpack32_pack32 a, ← unpack32_pack32 b, ← unpack32_xor]
  simp only [pack32_unpack32]

/-- `xor_induction` over the packed word. -/
theorem keyWord_induction {P : KeyWord → Prop} (zero : P (unpack32 0#32)) (bit : ∀ i < 32, P (unpack32 (twoPow 32 i)))
    (xor : ∀ a b, P a → P b → P (xorWord a b)) (a : KeyWord) : P a := by
  rw [← unpack32_pack32 a]
  induction pack32 a using xor_induction with
  | zero => exact zero
  | bit i hi => exact bit i hi
  | xor v w hv hw =>
    rw [unpack32_xor]
    exact xor _ _ hv hw

theorem invMixCol_xorWord (a b : KeyWord) : invMixCol (xorWord a b) = xorWord (invMixCol a) (invMixCol b) := by
  apply keyWord_ext <;> simp [invMixCol, xorWord, gmul_xor_right] <;> ac_rfl

/-- Each row of the matrix sums to 1. -/
theorem invMixCol_of_equal_bytes (b : Byte) : invMixCol #v[b, b, b, b] = #v[b, b, b, b] := by
  apply keyWord_ext <;> simp [invMixCol, ← gmul_xor_left] <;> exact one_gmul b

@[simp] theorem xorBlock_getElem (x y : Block) (n : Nat) (h : n < 16) : (Claims.xorBlock x y)[n] = x[n] ^^^ y[n] := by
  simp [Claims.xorBlock]

theorem blockColumn_xorBlock (x y : Block) (c : Fin 4) :
    blockColumn (Claims.xorBlock x y) c = xorWord (blockColumn x c) (blockColumn y c) := by
  apply keyWord_ext <;> simp [blockColumn, xorWord]

theorem invMixColumns_row_column (x : Block) (r c : Fin 4) :
    (invMixColumns x)[4 * r.val + c.val] = (invMixCol (blockColumn x c))[r] := by
  have hmod : (4 * r.val + c.val) % 4 = c := by omega
  have hdiv : (4 * r.val + c.val) / 4 = r := by omega
  simp [hmod, hdiv]

end Sys2Proof.Machine

namespace Sys2Proof.Claims

open Sys2Proof.Machine BitVec

theorem mixCol_xorWord (a b : KeyWord) : mixCol (xorWord a b) = xorWord (mixCol a) (mixCol b) := by
  apply keyWord_ext <;> simp [mixCol, xorWord, gmul_xor_right] <;> ac_rfl

theorem invMixCol_mixCol (a : KeyWord) : invMixCol (mixCol a) = a := by
  induction a using keyWord_induction with
  | zero => decide
  | bit i hi => decide +revert
  | xor a b ha hb => rw [mixCol_xorWord, invMixCol_xorWord, ha, hb]

theorem mixCol_invMixCol (a : KeyWord) : mixCol (invMixCol a) = a := by
  induction a using keyWord_induction with
  | zero => decide
  | bit i hi => decide +revert
  | xor a b ha hb => rw [invMixCol_xorWord, mixCol_xorWord, ha, hb]

/-- Settles O13: the two mixes are linear and undo each other on the columns of a single bit. -/
theorem invMixColInvertsMixCol : Obligations.InvMixColInvertsMixCol :=
  ⟨fun a => ⟨invMixCol_mixCol a, mixCol_invMixCol a⟩, invMixCol_of_equal_bytes, by decide, by decide⟩

/-- Settles O14: each byte comes from its own column (`invMixColumns_row_column`), whose mix is linear. -/
theorem invMixColumnsByColumn : Obligations.InvMixColumnsByColumn := by
  refine ⟨invMixColumns_row_column, fun x y c h r => ?_, fun x y => ?_, by decide⟩
  · have hcolumn : blockColumn x c = blockColumn y c := by
      apply keyWord_ext
      · simpa [blockColumn] using h 0
      · exact h 1
      · exact h 2
      · exact h 3
    rw [invMixColumns_row_column, invMixColumns_row_column, hcolumn]
  · apply Vector.ext
    intro n hn
    simp [blockColumn_xorBlock, invMixCol_xorWord, xorWord_getElem]

end Sys2Proof.Claims

/-! PROOF. The S-box and the word transforms (spec/40_transforms.md R104 to R109). Taking the affine map back from the table gives an
inverse of each nonzero byte, so these are a group of order 255, in which the power 254 that `gfInv` computes is the inverse. -/

namespace Sys2Proof.Machine

open BitVec

/-! ### The word transforms in packed form (R106 to R109) -/

theorem rotateLeft_append (x : BitVec 8) (y : BitVec 24) : (x ++ y : BitVec 32).rotateLeft 8 = (y ++ x : BitVec 32) := by
  apply eq_of_getLsbD_eq
  intro i hi
  rw [getLsbD_rotateLeft, getLsbD_append, getLsbD_append, getLsbD_append]
  obtain h | h := Nat.lt_or_ge i 8
  · simp [h]
  · simp [Nat.not_lt.mpr h, hi, show i - 8 < 24 by omega]

/-- Byte 0 is the highest byte of the packed word, and RotWord moves it below the others. -/
theorem pack32_rotWord (a : KeyWord) : pack32 (rotWord a) = (pack32 a).rotateLeft 8 := by
  have hpack : pack32 a = a[0] ++ (a[1] ++ a[2] ++ a[3]) := by
    simp only [pack32, BitVec.append_assoc, BitVec.cast_eq]
  rw [hpack, rotateLeft_append]
  rfl

theorem pack32_byte_zero (c : Byte) : pack32 #v[c, 0, 0, 0] = c.setWidth 32 <<< 24 := by
  have h := setWidth_append_append_append_eq_shiftLeft_setWidth_or (w'''' := 32) (b := c) (b' := 0#8) (b'' := 0#8) (b''' := 0#8)
  simpa [pack32] using h

theorem transformT_eq_xorWord (a : KeyWord) (i : Nat) :
    transformT a i = xorWord (subWord (rotWord a)) #v[rcon (i / 4), 0, 0, 0] := by
  apply keyWord_ext <;> simp [xorWord_getElem, subWord_getElem]

theorem pack32_transformT (a : KeyWord) (i : Nat) :
    pack32 (transformT a i) = pack32 (subWord (rotWord a)) ^^^ ((rcon (i / 4)).setWidth 32 <<< 24) := by
  rw [transformT_eq_xorWord, pack32_xorWord, pack32_byte_zero]

theorem rcon_succ {j : Nat} (h1 : 1 ≤ j) (h9 : j ≤ 9) : rcon (j + 1) = xtime (rcon j) := by
  interval_cases j <;> decide

/-! ### The S-box and the inverse (R104, R105) -/

/-- The affine map of R105 taken back. -/
def sboxAffineInv (y : Byte) : Byte := (y ^^^ 0x63).rotateLeft 1 ^^^ (y ^^^ 0x63).rotateLeft 3 ^^^ (y ^^^ 0x63).rotateLeft 6

theorem sboxAffine_sboxAffineInv : ∀ y : Byte, sboxAffine (sboxAffineInv y) = y := by decide +kernel

/-- The inverse of `x` as the table has it. -/
def tableInv (x : Byte) : Byte := sboxAffineInv (sbox x)

/-- The 255 nonzero entries of the table. -/
theorem gmul_tableInv : ∀ x : Byte, x ≠ 0 → gmul x (tableInv x) = 1 := by decide +kernel

theorem tableInv_gmul {x : Byte} (hx : x ≠ 0) : gmul (tableInv x) x = 1 := (gmul_comm _ x).trans (gmul_tableInv x hx)

theorem gmul_left_cancel {x y z : Byte} (hx : x ≠ 0) (h : gmul x y = gmul x z) : y = z := by
  have := congrArg (gmul (tableInv x)) h
  rwa [gmul_assoc, gmul_assoc, tableInv_gmul hx, one_gmul, one_gmul] at this

theorem gmul_ne_zero {x y : Byte} (hx : x ≠ 0) (hy : y ≠ 0) : gmul x y ≠ 0 := fun h =>
  hy (gmul_left_cancel hx (h.trans (gmul_zero x).symm))

theorem tableInv_ne_zero {x : Byte} (hx : x ≠ 0) : tableInv x ≠ 0 := by
  intro h
  have h1 := gmul_tableInv x hx
  rw [h] at h1
  exact absurd ((gmul_zero x).symm.trans h1) (by decide)

/-- The nonzero bytes under `gmul`. -/
abbrev nonzeroGroup : Group {x : Byte // x ≠ 0} :=
  letI : Mul {x : Byte // x ≠ 0} := ⟨fun x y => ⟨gmul x y, gmul_ne_zero x.2 y.2⟩⟩
  letI : One {x : Byte // x ≠ 0} := ⟨⟨1, by decide⟩⟩
  letI : Inv {x : Byte // x ≠ 0} := ⟨fun x => ⟨tableInv x, tableInv_ne_zero x.2⟩⟩
  Group.ofLeftAxioms (fun x y z => Subtype.ext (gmul_assoc x y z).symm) (fun x => Subtype.ext (one_gmul x))
    fun x => Subtype.ext (tableInv_gmul x.2)

theorem card_nonzero : Nat.card {x : Byte // x ≠ 0} = 255 := by
  rw [Nat.card_congr (BitVec.equivFin.subtypeEquiv (q := fun i => i ≠ 0) (by simp))]
  simp

/-- The group has order 255, so the power 254 is the inverse. -/
theorem gmul_gfInv (x : Byte) (hx : x ≠ 0) : gmul x (gfInv x) = 1 := by
  let _ := nonzeroGroup
  have hmul (g h : {x : Byte // x ≠ 0}) : gmul g h = (g * h).val := rfl
  have hchain (g : {x : Byte // x ≠ 0}) : gmul g (gfInv g) = (g ^ 255).val := by
    simp only [gfInv, hmul, ← pow_two, ← pow_mul, ← pow_add, ← pow_succ']
    rfl
  have horder (g : {x : Byte // x ≠ 0}) : g ^ 255 = 1 := by rw [← card_nonzero, pow_card_eq_one']
  exact (hchain ⟨x, hx⟩).trans (congrArg Subtype.val (horder ⟨x, hx⟩))

theorem gfInv_zero : gfInv 0 = 0 := by decide +kernel

theorem gfInv_eq_tableInv (x : Byte) : gfInv x = tableInv x := by
  obtain rfl | hx := eq_or_ne x 0
  · decide +kernel
  · exact gmul_left_cancel hx ((gmul_gfInv x hx).trans (gmul_tableInv x hx).symm)

theorem sbox_eq_sboxAffine_gfInv (x : Byte) : sbox x = sboxAffine (gfInv x) := by
  rw [gfInv_eq_tableInv, tableInv, sboxAffine_sboxAffineInv]

end Sys2Proof.Machine

namespace Sys2Proof.Claims

open Sys2Proof.Machine

/-- Settles O11: `gfInv` is the inverse that the table holds (`gfInv_eq_tableInv`); each rotation is its two shifts. -/
theorem sboxTableIsConstruction : Obligations.SboxTableIsConstruction :=
  ⟨sbox_eq_sboxAffine_gfInv, gfInv_zero, gmul_gfInv, fun _ => rfl, by decide +kernel, by decide⟩

/-- Settles O12: in packed form RotWord is `pack32_rotWord` and T is `pack32_transformT`. -/
theorem wordTransforms : Obligations.WordTransforms :=
  ⟨by decide, fun _ => rcon_succ, fun a => ⟨rfl, pack32_rotWord a, rfl⟩,
    fun a i _ _ _ => ⟨transformT_getElem_zero a i, transformT_getElem_one a i, transformT_getElem_two a i,
      transformT_getElem_three a i, pack32_transformT a i⟩, by decide, by decide, by decide⟩

end Sys2Proof.Claims

/-! PROOF. The expansion and the views of it (spec/41_expansion.md R130 to R137). A word, once computed, stays as it is, so each word
of `expand` is the one that its own step of `expandTo` adds, which is R131. -/

namespace Sys2Proof.Machine

/-! ### Expand (R130, R131) -/

/-- A longer expansion starts with the words of a shorter one. -/
theorem expandTo_getElem_of_le (k : KeyBytes) {n m i : Nat} (hnm : n ≤ m) (hi : i < 4 + n) :
    (expandTo k m)[i] = (expandTo k n)[i] := by
  obtain ⟨d, rfl⟩ := Nat.exists_eq_add_of_le hnm
  exact expandTo_prefix k n d i hi

/-- `expand` is the expansion to 44 words, so it starts with the words of each shorter one. -/
theorem expand_getElem_eq_expandTo (k : KeyBytes) {n i : Nat} (hn : n ≤ 40) (hi : i < 4 + n) :
    (expand k)[i] = (expandTo k n)[i] := expandTo_getElem_of_le k hn hi

/-- The first four words are the rows of the key (R130). -/
theorem expand_getElem_of_lt (k : KeyBytes) {i : Nat} (hi : i < 4) : (expand k)[i] = blockRow k ⟨i, hi⟩ :=
  (expand_getElem_eq_expandTo k (Nat.zero_le 40) hi).trans (keyWords_getElem k i hi)

/-- Every later word is made from the words four and one before it (R131). -/
theorem expand_getElem_four_add (k : KeyBytes) {n : Nat} (hn : n < 40) :
    (expand k)[4 + n] = xorWord (expand k)[n]
      (if (4 + n) % 4 = 0 then transformT (expand k)[n + 3] (4 + n) else (expand k)[n + 3]) := by
  rw [expand_getElem_eq_expandTo k hn (by omega), expandTo_succ_getElem_last,
    expand_getElem_eq_expandTo k (n := n) (i := n) (by omega) (by omega),
    expand_getElem_eq_expandTo k (n := n) (i := n + 3) (by omega) (by omega)]

/-- The first four register words of an expansion are the key registers. -/
theorem expandedRegisters_getElem_of_lt (key : Vector Word 4) {i : Nat} (hi : i < 4) :
    (expandedRegisters (keyBytes key))[i] = key[i] := by
  rw [expandedRegisters_getElem, expand_getElem_of_lt _ hi, blockRow_keyBytes, pack32_unpack32]
  rfl

/-! ### The expanded key and its blocks (R134, R135) -/

/-- Byte j of word i is byte 4i + j of the expanded key (R134). -/
theorem expandedBytes_word_byte (w : Vector KeyWord 44) {i j : Nat} (hi : i < 44) (hj : j < 4) :
    (expandedBytes w)[4 * i + j] = w[i][j] := by
  have hdiv : (4 * i + j) / 4 = i := by omega
  have hmod : (4 * i + j) % 4 = j := by omega
  simp only [expandedBytes_getElem, hdiv, hmod]

/-- Row j, column i of round key k is byte 16k + 4i + j of the expanded key (R135). -/
theorem repack_row_column (w : Vector KeyWord 44) {k i j : Nat} (hk : k < 11) (hi : i < 4) (hj : j < 4) :
    (repack w)[k][4 * j + i] = (expandedBytes w)[16 * k + 4 * i + j] := by
  have hdiv : (4 * j + i) / 4 = j := by omega
  have hmod : (4 * j + i) % 4 = i := by omega
  simp only [repack_getElem, hdiv, hmod]

/-- Column i of round key k is word 4k + i (R136). -/
theorem repack_row_column_eq_word (w : Vector KeyWord 44) {k i j : Nat} (hk : k < 11) (hi : i < 4) (hj : j < 4) :
    (repack w)[k][4 * j + i] = w[4 * k + i][j] := by
  have hpos : 16 * k + 4 * i + j = 4 * (4 * k + i) + j := by omega
  simp only [repack_row_column w hk hi hj, hpos]
  exact expandedBytes_word_byte w (by omega) hj

end Sys2Proof.Machine

namespace Sys2Proof.Claims

open Sys2Proof.Machine

/-- Settles O16: the first words are the rows of the key, and `expand_getElem_four_add` is the recurrence for i = 4 + n. -/
theorem expansionRecurrence : Obligations.ExpansionRecurrence := by
  refine ⟨fun k i j => ?_, fun key i => expandedRegisters_getElem_of_lt key i.isLt, fun k i h h4 => ?_,
    fun a b j => xorWord_getElem a b j j.isLt⟩
  · rw [expand_getElem_of_lt k i.isLt]
    exact blockRow_getElem k i j j.isLt
  · obtain ⟨n, rfl⟩ := Nat.exists_eq_add_of_le h4
    have hfour : 4 + n - 4 = n := by omega
    have hone : 4 + n - 1 = n + 3 := by omega
    have hword := expand_getElem_four_add k (n := n) (by omega)
    simp only [hfour, hone]
    exact ⟨fun hmod => by rw [hword, if_pos hmod], fun hmod => by rw [hword, if_neg hmod]⟩

/-- Settles O17: division with remainder by 4 finds the word and the byte, for `expandedBytes` and for `repack`. -/
theorem repackTransposes : Obligations.RepackTransposes := fun w =>
  ⟨fun i j => expandedBytes_word_byte w i.isLt j.isLt, fun k i j =>
    ⟨repack_row_column w k.isLt i.isLt j.isLt, repack_row_column_eq_word w k.isLt i.isLt j.isLt⟩⟩

/-- Settles O18: rounds 0 and 10 fall outside the range that `decPass` mixes. -/
theorem decPassMixesMiddleRounds : Obligations.DecPassMixesMiddleRounds := by
  refine fun x => ⟨?_, ?_, fun k h1 h9 => ?_⟩
  · exact (decPass_getElem x 0 (by omega)).trans (if_neg (by omega))
  · exact (decPass_getElem x 10 (by omega)).trans (if_neg (by omega))
  · exact (decPass_getElem x k k.isLt).trans (if_pos ⟨h1, h9⟩)

end Sys2Proof.Claims

/-! PROOF. How long outputs last (spec/41_expansion.md R140, R141): only an accepted KEY write, an accepted command and a reset take them
away, and the completion of a command computes them again from the same key. -/

namespace Sys2Proof.Machine

/-- The outputs of `t` are those of `s`: the key, W, and what decides whether W can be read are the same. -/
structure SameOutputs (s t : State) : Prop where
  w : t.w = s.w
  encValid : t.encValid = s.encValid
  decValid : t.decValid = s.decValid
  busy : t.busy = s.busy
  key : t.key = s.key

/-- The port then shows the same for every request. -/
theorem SameOutputs.port {s t : State} (h : SameOutputs s t) (p : PortRequest) :
    portValid t p = portValid s p ∧ portData t p = portData s p := port_congr h.w h.busy h.encValid h.decValid p

/-- Taking the next thing out of the inbox changes no output. -/
theorem SameOutputs.of_withInbox {s t : State} {q : List Stimulus} (h : SameOutputs (s.withInbox q) t) : SameOutputs s t :=
  ⟨h.w, h.encValid, h.decValid, h.busy, h.key⟩

/-- A command that R150 accepts is EXPAND_ENC or EXPAND_DEC: a well-formed CMD_ILLEGAL has no legal value. -/
theorem eq_expand_of_legalCommand {i : Instr} {v : Word} (hwf : WellFormed i) (hl : legalCommand v = true)
    (hi : i = .expandEnc ∧ v = 1 ∨ i = .expandDec ∧ v = 2 ∨ i = .cmdIllegal v) : i = .expandEnc ∨ i = .expandDec := by
  obtain ⟨rfl, -⟩ | ⟨rfl, -⟩ | rfl := hi
  · exact .inl rfl
  · exact .inr rfl
  · obtain ⟨h1, h2⟩ := (cmdIllegal_wellFormed_iff v).mp hwf
    exact (((legalCommand_iff v).mp hl).elim h1 h2).elim

/-- An instruction that is neither an accepted KEY write nor an accepted command keeps the outputs. -/
theorem exec_keeps_outputs {i : Instr} {s t : State} (hwf : WellFormed i) (hkey : ∀ n v, i = .wrKey n v → s.busy = true)
    (hcmd : i = .expandEnc ∨ i = .expandDec → s.busy = true ∨ s.keymask ≠ 0xF) (ht : exec i s = .next t) : SameOutputs s t := by
  obtain ⟨c, he⟩ | ⟨v, he⟩ | ⟨n, v, hi, hb, -⟩ | ⟨v, hl, hi, hb, hk, -⟩ | ⟨v, -, -, he⟩ | ⟨p, -, he⟩ := exec_cases i s
  case inr.inr.inl => exact absurd (hkey n v hi) (by simp [hb])
  case inr.inr.inr.inl =>
    have hfull : s.keymask = 0xF := by simpa [keyComplete] using hk
    simpa [hb, hfull] using hcmd (eq_expand_of_legalCommand hwf hl hi)
  all_goals
    cases he.symm.trans ht
    constructor <;> simp

/-- A clock cycle keeps the outputs of an idle block (R217). -/
theorem engineTurn_keeps_outputs {s : State} (hb : s.busy = false) : SameOutputs s (engineTurn s) := by
  rw [engineTurn_of_idle hb]
  exact ⟨rfl, rfl, rfl, rfl, rfl⟩

/-- A step of an idle block keeps the outputs, unless it is a reset, a KEY write or a command with a full key. -/
theorem step_keeps_outputs {s t : State} (hb : s.busy = false) (ht : step s = .next t) (hreset : ∀ q, s.inbox ≠ .reset :: q)
    (hkey : ∀ r q n v, s.inbox = .record r :: q → decode r ≠ .ok (.wrKey n v))
    (hcmd : ∀ r q, s.inbox = .record r :: q → decode r = .ok .expandEnc ∨ decode r = .ok .expandDec → s.keymask ≠ 0xF) :
    SameOutputs s t := by
  obtain ⟨-, he⟩ | ⟨q, -, he⟩ | ⟨q, hq, -⟩ | ⟨r, q, i, hq, hd, he⟩ | ⟨r, q, e, -, -, he⟩ := step_cases s
  · cases he.symm.trans ht
    exact engineTurn_keeps_outputs hb
  · cases he.symm.trans ht
    exact (engineTurn_keeps_outputs (s := s.withInbox q) hb).of_withInbox
  · exact absurd hq (hreset q)
  · obtain ⟨hwf, -⟩ := Claims.encodeDecodeRoundTrip r i hd
    have hkey' : ∀ n v, i = .wrKey n v → s.busy = true := fun n v hi => absurd (hi ▸ hd) (hkey r q n v hq)
    have hcmd' : i = .expandEnc ∨ i = .expandDec → s.busy = true ∨ s.keymask ≠ 0xF := fun hi =>
      .inr (hcmd r q hq (by simpa [hd] using hi))
    exact (exec_keeps_outputs (s := s.withInbox q) hwf hkey' hcmd' (he.symm.trans ht)).of_withInbox
  · cases he.symm.trans ht

/-- A CMD write, accepted or not, keeps the key (R150). -/
theorem cmdWrite_key (v : Word) (s : State) : (cmdWrite v s).key = s.key := by
  obtain ⟨-, h⟩ | ⟨-, -, h⟩ | ⟨-, -, -, h⟩ | ⟨-, -, -, h⟩ := cmdWrite_cases v s <;> simp [h]

/-- Readable outputs are the expansion of the key, so a completion with the same key leaves them as they are (R140). -/
theorem complete_outputs_of_same_key {s t : State} (h : BlockInv s) (he : s.encValid = true) (hk : t.key = s.key) :
    (complete t).w = s.w ∧ (complete t).rk = s.rk ∧ (complete t).drk = s.drk := by
  have hw : (complete t).w = s.w := by rw [complete_w, hk, h.outputs he]
  exact ⟨hw, rk_congr hw, drk_congr hw⟩

end Sys2Proof.Machine

namespace Sys2Proof.Claims

open Sys2Proof.Machine

/-- Settles O57: `exec_keeps_outputs` for an instruction and `step_keeps_outputs` for a step; the port is a function of what they keep. -/
theorem outputsStayReadable : Obligations.OutputsStayReadable := by
  refine ⟨fun i s t hwf hkey hcmd ht => ?_, fun s t hb ht hreset hkey hcmd => ?_⟩
  · have h := exec_keeps_outputs hwf hkey hcmd ht
    exact ⟨h.w, h.encValid, h.decValid, h.busy, h.key, h.port⟩
  · have h := step_keeps_outputs hb ht hreset hkey hcmd
    exact ⟨h.w, h.encValid, h.decValid, h.busy, h.key, h.port⟩

/-- Settles O58: a command keeps the key, and its completion computes from the key what the outputs already are. -/
theorem reexpansionDeterministic : Obligations.ReexpansionDeterministic := by
  intro s t h he ht
  have hkey : t.key = s.key := by
    obtain ht | ht := ht <;> cases ht
    · exact cmdWrite_key 1 s
    · exact cmdWrite_key 2 s
  exact complete_outputs_of_same_key h he hkey

end Sys2Proof.Claims

/-! PROOF. Commands and the engine (spec/42_commands.md R150 to R156): an accepted command starts the engine, every clock cycle is one
turn of it, and the turn that finds CNT at 1 completes. -/

namespace Sys2Proof.Machine

/-! ### The later checks of a CMD write (R150) -/

theorem cmdWrite_of_illegal {v : Word} {s : State} (hb : s.busy = false) (h1 : v ≠ 1) (h2 : v ≠ 2) :
    cmdWrite v s = raiseBusError .cmd s := by
  have hl : ¬legalCommand v = true := fun h => ((legalCommand_iff v).mp h).elim h1 h2
  simp [cmdWrite, hb, hl]

theorem cmdWrite_of_incomplete_key {v : Word} {s : State} (hb : s.busy = false) (hl : legalCommand v = true) (hk : s.keymask ≠ 0xF) :
    cmdWrite v s = raiseBusError .key s := by
  have hkey : keyComplete s = false := beq_false_of_ne hk
  simp [cmdWrite, hb, hl, hkey]

/-! ### A busy block -/

/-- An instruction keeps the operation of a busy block running (R156, R240). -/
theorem exec_of_busy {i : Instr} {s t : State} (hb : s.busy = true) (ht : exec i s = .next t) : t.op = s.op ∧ t.busy = true := by
  obtain ⟨c, he⟩ | ⟨v, he⟩ | ⟨n, v, -, hidle, -⟩ | ⟨v, -, -, hidle, -, -⟩ | ⟨v, -, -, he⟩ | ⟨p, -, he⟩ := exec_cases i s
  case inr.inr.inl | inr.inr.inr.inl => simp [hb] at hidle
  all_goals
    cases he.symm.trans ht
    simp [hb]

/-- A turn of the engine keeps OP. -/
theorem engineTurn_op (s : State) : (engineTurn s).op = s.op := by
  obtain ⟨-, h⟩ | ⟨-, -, h⟩ | ⟨-, -, h⟩ := engineTurn_cases s <;> simp [h]

/-- A turn that ends the operation is the completion (R154). -/
theorem engineTurn_eq_complete {s : State} (hb : s.busy = true) (hend : (engineTurn s).busy = false) :
    s.cnt ≤ 1 ∧ engineTurn s = complete s := by
  obtain ⟨hidle, -⟩ | ⟨-, -, h⟩ | ⟨-, hc, h⟩ := engineTurn_cases s
  · simp [hb] at hidle
  · simp [h, hb] at hend
  · exact ⟨hc, h⟩

/-- A step of a busy block that is no reset keeps OP, and when it ends the operation it is the completion, at a clock cycle or with
nothing left in the inbox. -/
theorem step_of_busy {s t : State} (hb : s.busy = true) (ht : step s = .next t) (hr : ∀ q, s.inbox ≠ .reset :: q) :
    t.op = s.op ∧ (t.busy = false → s.cnt ≤ 1 ∧
      ((s.inbox = [] ∧ t = complete s) ∨ ∃ q, s.inbox = .clock :: q ∧ t = complete (s.withInbox q))) := by
  obtain ⟨hq, he⟩ | ⟨q, hq, he⟩ | ⟨q, hq, -⟩ | ⟨r, q, i, -, -, he⟩ | ⟨r, q, e, -, -, he⟩ := step_cases s
  · cases he.symm.trans ht
    refine ⟨engineTurn_op s, fun hend => ?_⟩
    obtain ⟨hc, hcomplete⟩ := engineTurn_eq_complete hb hend
    exact ⟨hc, .inl ⟨hq, hcomplete⟩⟩
  · cases he.symm.trans ht
    refine ⟨engineTurn_op (s.withInbox q), fun hend => ?_⟩
    obtain ⟨hc, hcomplete⟩ := engineTurn_eq_complete (s := s.withInbox q) hb hend
    exact ⟨hc, .inr ⟨q, hq, hcomplete⟩⟩
  · exact absurd hq (hr q)
  · obtain ⟨hop, hbusy⟩ := exec_of_busy (s := s.withInbox q) hb (he.symm.trans ht)
    exact ⟨hop, fun hend => by simp [hbusy] at hend⟩
  · cases he.symm.trans ht

/-! ### Runs of the engine (R155) -/

/-- The engine's turns keep the key. -/
theorem turns_key (n : Nat) (s : State) : (engineTurn^[n] s).key = s.key := by
  induction n generalizing s with
  | zero => rfl
  | succ n ih => rw [Function.iterate_succ_apply, ih, (engineTurn_key s).1]

/-- A turn takes nothing from the inbox. -/
theorem engineTurn_inbox (s : State) : (engineTurn s).inbox = s.inbox := by
  obtain ⟨-, h⟩ | ⟨-, -, h⟩ | ⟨-, -, h⟩ := engineTurn_cases s <;> simp [h]

/-- Each clock cycle of a run is a turn of the engine. -/
theorem run_clocks (n : Nat) (s : State) (q : List Stimulus) :
    Sys2Proof.core.run n (s.withInbox (List.replicate n .clock ++ q)) = .next ((engineTurn^[n] s).withInbox q) := by
  induction n generalizing s with
  | zero => rfl
  | succ n ih =>
    rw [List.replicate_succ, List.cons_append, run_succ_of_step n (step_of_clock s _), engineTurn_withInbox, ih,
      Function.iterate_succ_apply]

/-- With an empty inbox every step of a run is a turn of the engine (log 4). -/
theorem run_of_empty {s : State} (hq : s.inbox = []) (n : Nat) : Sys2Proof.core.run n s = .next (engineTurn^[n] s) := by
  induction n generalizing s with
  | zero => rfl
  | succ n ih =>
    have hstep : step s = .next (engineTurn s) := by simp [step, hq]
    rw [run_succ_of_step n hstep, ih ((engineTurn_inbox s).trans hq), Function.iterate_succ_apply]

end Sys2Proof.Machine

namespace Sys2Proof.Claims

open Sys2Proof.Machine

/-- Settles O21: the branches of `cmdWrite` in their order; the accepted one writes the fields that the frame leaves out. -/
theorem cmdWriteChecksInOrder : Obligations.CmdWriteChecksInOrder := by
  intro v s
  rw [exec_decodeCmd]
  refine ⟨fun hb => ?_, fun hb h1 h2 => ?_, fun hb hv hk => ?_, fun hb hv hk => ?_⟩
  · rw [cmdWrite_of_busy hb, raiseBusError_eq_rejectedWith, errorCode]
  · rw [cmdWrite_of_illegal hb h1 h2, raiseBusError_eq_rejectedWith, errorCode]
  · rw [cmdWrite_of_incomplete_key hb ((legalCommand_iff v).mpr hv) hk, raiseBusError_eq_rejectedWith, errorCode]
  · rw [cmdWrite_of_accepted hb ((legalCommand_iff v).mpr hv) hk]
    exact ⟨_, rfl, rfl, rfl, rfl, rfl, rfl, rfl, rfl⟩

/-- An accepted command starts the engine, and the turn that finds CNT at 1 completes it (R150 to R154). -/
theorem command_starts_and_completes {v : Word} {s : State} (hb : s.busy = false) (hv : v = 1 ∨ v = 2) (hk : s.keymask = 0xF) :
    ∃ t, exec (decodeCmd v) s = .next t ∧
      t.op = v.extractLsb' 0 2 ∧ t.busy = true ∧ t.encValid = false ∧ t.decValid = false ∧
      t.cnt = commandLatency (v.extractLsb' 0 2) ∧ 1 ≤ t.cnt ∧ t.resp = some { err := false, rdata := 0 } ∧
      { t with op := s.op, busy := s.busy, encValid := s.encValid, decValid := s.decValid, w := s.w, cnt := s.cnt, resp := s.resp } = s ∧
      ∀ u, engineTurn { t with cnt := 1 } = u → u.w = some (expandedRegisters (keyBytes s.key)) ∧
        u.encValid = true ∧ u.decValid = (v.extractLsb' 0 2 == 2) ∧ u.busy = false := by
  obtain ⟨-, -, -, haccepted⟩ := cmdWriteChecksInOrder v s
  obtain ⟨t, ht, hop, hbusy, henc, hdec, hcnt, hresp, hframe⟩ := haccepted hb hv hk
  have hlat : t.cnt = commandLatency (v.extractLsb' 0 2) := hop ▸ hcnt
  have hkey : t.key = s.key := (congrArg State.key hframe :)
  refine ⟨t, ht, hop, hbusy, henc, hdec, hlat, hlat ▸ one_le_commandLatency _, hresp, hframe, ?_⟩
  rintro u rfl
  rw [engineTurn_of_expired (s := { t with cnt := 1 }) hbusy le_rfl]
  simp [hkey, hop]

/-- Settles O22: the command of value 1. -/
theorem expandEncStartsAndCompletes : Obligations.ExpandEncStartsAndCompletes :=
  ⟨decode_writeRecord .cmd 1, fun _ hb hk => command_starts_and_completes hb (.inl rfl) hk⟩

/-- Settles O23: the command of value 2. -/
theorem expandDecStartsAndCompletes : Obligations.ExpandDecStartsAndCompletes :=
  ⟨decode_writeRecord .cmd 2, fun _ hb hk => command_starts_and_completes hb (.inr rfl) hk⟩

/-- Settles O43: the clock cycle is a turn of the engine, which completes when CNT has expired and is silent in an idle block. -/
theorem engineCompletion : Obligations.EngineCompletion := by
  obtain ⟨-, hclock, -⟩ := stepRunsDecodedInstruction
  refine ⟨fun s q hq hb hc => ?_, fun s q hq hb => ?_⟩
  · refine ⟨complete (s.withInbox q), _, ?_, rfl, fun i => ?_, fun n => ?_, rfl, rfl, rfl, rfl, rfl, rfl⟩
    · exact (hclock s q hq).trans (congrArg _ (engineTurn_of_expired (s := s.withInbox q) hb hc))
    · exact expandedRegisters_getElem _ i i.isLt
    · exact keyBytes_getElem s.key n n.isLt
  · exact (hclock s q hq).trans (congrArg _ (engineTurn_of_idle (s := s.withInbox q) hb))

/-- Settles O44: a clock cycle is a turn of the engine (`run_clocks`), which completes at turn CNT and not before. -/
theorem completionAfterLatency : Obligations.CompletionAfterLatency := by
  refine ⟨fun s hb hk => ?_, fun s q hb hc => ⟨fun n hn => ?_, ?_⟩⟩
  · obtain ⟨t, ht, -, -, -, -, hcnt, -⟩ := command_starts_and_completes hb (.inl rfl) hk
    obtain ⟨u, hu, -, -, -, -, hcnt', -⟩ := command_starts_and_completes hb (.inr rfl) hk
    exact ⟨⟨t, ht, hcnt, one_le_commandLatency 1⟩, u, hu, hcnt', one_le_commandLatency 2⟩
  · obtain ⟨m, hm⟩ := Nat.exists_eq_add_of_lt hn
    rw [hm, Nat.add_assoc, List.replicate_add, List.append_assoc, run_clocks]
    exact ⟨_, rfl, busy_of_turns_lt hb hn, turns_key n s⟩
  · rw [run_clocks, turns_eq_complete hb hc le_rfl]
    rfl

/-- Settles O45: with an empty inbox every step is a turn of the engine (`run_of_empty`), and CNT + 1 turns are enough whatever CNT. -/
theorem busyEngineEventuallyCompletes : Obligations.BusyEngineEventuallyCompletes := by
  intro s hb hq
  refine ⟨s.cnt + 1, complete s, ?_, rfl, rfl, rfl, rfl, rfl⟩
  rw [run_of_empty hq, turns_eq_complete hb (Nat.le_add_left 1 _) (Nat.le_succ _)]

/-- Settles O56: the key registers change only by an accepted KEY write (`step_key`), and the rest is `step_of_busy`. -/
theorem operationRunsToCompletion : Obligations.OperationRunsToCompletion := by
  intro s t ht hb hr
  obtain ⟨hop, hend⟩ := step_of_busy hb ht hr
  obtain ⟨hk, hm⟩ | ⟨_, _, _, _, -, -, hidle, -⟩ := step_key ht hr
  · refine ⟨hk, hm, hop, fun hbusy => ?_⟩
    obtain ⟨hc, ⟨hq, rfl⟩ | ⟨q, hq, rfl⟩⟩ := hend hbusy
    · exact ⟨hc, .inl hq, rfl⟩
    · exact ⟨hc, .inr ⟨q, hq⟩, rfl⟩
  · simp [hb] at hidle

end Sys2Proof.Claims

/-! PROOF. Register reads and writes (spec/43_register_access.md R171 to R183): the records of a register are those of its offset, a
read of an output window answers a view of W once BUSY and the valid bit allow it, and every rejection is `rejectedWith` its code. -/

namespace Sys2Proof

/-- The map has no register in the unmapped ranges, nor at a misaligned offset (R53, R54). -/
theorem regAt_eq_none_of_range {a : BitVec 12}
    (h : 0x018 ≤ a.toNat ∧ a.toNat ≤ 0x0FC ∨ 0x1B0 ≤ a.toNat ∧ a.toNat ≤ 0x1FC ∨ 0x2B0 ≤ a.toNat ∧ a.toNat ≤ 0x2FC ∨
      0x3B0 ≤ a.toNat) : regAt a = none := by
  by_cases hal : a.toNat % 4 = 0
  · exact ((unmappedOffset_iff a).mp ((unmappedOffset_iff_ranges a).mpr ⟨hal, h⟩)).2
  · exact if_pos hal

end Sys2Proof

namespace Sys2Proof.Machine

/-! ### Windows (R177, R179, R181) -/

theorem windowRead_of_busy {s : State} (hb : s.busy = true) (valid : Bool) (v : Word) :
    windowRead valid v s = raiseBusError .busy s := if_pos hb

theorem windowRead_of_not_ready {s : State} (hb : s.busy = false) {valid : Bool} (hv : valid = false) (v : Word) :
    windowRead valid v s = raiseBusError .notReady s := by simp [windowRead, hb, hv]

/-! ### The key registers (R172) -/

theorem keyWrite_of_busy {s : State} (hb : s.busy = true) (n : Fin 4) (v : Word) : keyWrite n v s = raiseBusError .busy s :=
  if_pos hb

theorem keyWrite_of_idle {s : State} (hb : s.busy = false) (n : Fin 4) (v : Word) :
    keyWrite n v s = respondOk 0 (invalidate (storeKey n v s)) := if_neg (Bool.eq_false_iff.mp hb)

theorem keymaskWith_getLsbD (m : BitVec 4) (n b : Fin 4) : (keymaskWith m n).getLsbD b.val = (m.getLsbD b.val || b == n) := by
  have hbit : (1#4 <<< n.val).getLsbD b.val = (b == n) := by decide +revert
  rw [keymaskWith, BitVec.getLsbD_or, hbit]

/-! ### The STATUS word (R175) -/

theorem statusWord_encValid (s : State) : (statusWord s).getLsbD 1 = s.encValid := by
  simp only [statusWord, BitVec.getLsbD_setWidth, BitVec.getLsbD_append]
  simp

theorem statusWord_decValid (s : State) : (statusWord s).getLsbD 2 = s.decValid := by
  simp only [statusWord, BitVec.getLsbD_setWidth, BitVec.getLsbD_append]
  simp

open BitVec in
/-- Each field of the word is found by passing the fields below it (R29). -/
theorem statusWord_fields (s : State) : (statusWord s).extractLsb' 4 4 = s.keymask ∧ (statusWord s).extractLsb' 8 4 = s.errcode ∧
    (statusWord s).extractLsb' 12 2 = s.op := by
  simp (disch := decide) only [statusWord, extractLsb'_setWidth_of_le, extractLsb'_append_eq_of_le, extractLsb'_append_eq_of_add_le]
  simp

/-- The fields end at bit 13. -/
theorem statusWord_upper (s : State) : (statusWord s).extractLsb' 14 18 = 0 := by
  ext i hi
  simp [statusWord]

/-! ### The views of W (R31 to R33, R136 to R138) -/

section

variable {s : State} {v : Vector Word 44}

theorem wReg_of_w_some (hw : s.w = some v) (i : Fin 44) : s.wReg i = v[i] := by simp [State.wReg, hw]

theorem words_getElem_of_w (hw : s.w = some v) {i : Nat} (hi : i < 44) : s.words[i] = unpack32 v[i] := by
  simp [State.words, wReg_of_w_some hw]

/-- Row r, column c of round key k is byte r of word 4k + c (R136). -/
theorem rk_row_column_of_w (hw : s.w = some v) (k : Fin 11) (r c : Fin 4) :
    s.rk[k][4 * r.val + c.val] = (unpack32 (v[4 * k.val + c.val]'(by omega)))[r] := by
  rw [← words_getElem_of_w hw (i := 4 * k.val + c.val) (by omega)]
  exact repack_row_column_eq_word s.words k.isLt c.isLt r.isLt

theorem rk_column_of_w (hw : s.w = some v) (k : Fin 11) (c : Fin 4) :
    blockColumn s.rk[k] c = unpack32 (v[4 * k.val + c.val]'(by omega)) := by
  apply keyWord_ext
  · simpa [blockColumn] using rk_row_column_of_w hw k 0 c
  · simpa [blockColumn] using rk_row_column_of_w hw k 1 c
  · simpa [blockColumn] using rk_row_column_of_w hw k 2 c
  · simpa [blockColumn] using rk_row_column_of_w hw k 3 c

theorem blockRow_rk_of_w (hw : s.w = some v) (k : Fin 11) (r : Fin 4) : blockRow s.rk[k] r = Claims.roundKeyRow v k r := by
  apply Vector.ext
  intro c hc
  rw [blockRow_getElem, rk_row_column_of_w hw k r ⟨c, hc⟩]
  simp [Claims.roundKeyRow, Claims.roundKeyByte]

/-- Rounds 1 to 9 are mixed (R137). -/
theorem drk_getElem (s : State) (k : Fin 11) : s.drk[k] = if 1 ≤ k.val ∧ k.val ≤ 9 then invMixColumns s.rk[k] else s.rk[k] :=
  decPass_getElem s.rk k k.isLt

theorem blockRow_drk_of_w (hw : s.w = some v) (k : Fin 11) (r : Fin 4) : blockRow s.drk[k] r = Claims.decRoundKeyRow v k r := by
  rw [drk_getElem, Claims.decRoundKeyRow]
  split
  · apply Vector.ext
    intro c hc
    rw [blockRow_getElem, invMixColumns_row_column _ r ⟨c, hc⟩, rk_column_of_w hw]
    simp
  · exact blockRow_rk_of_w hw k r

end

end Sys2Proof.Machine

namespace Sys2Proof.Claims

open Sys2Proof.Machine

theorem decode_read_at {r : Target} {a : Nat} (h : r.offset.toNat = a) : decode (readRecord a) = .ok r.readInstr :=
  h ▸ decode_readRecord r

theorem decode_write_at {r : Target} {a : Nat} (h : r.offset.toNat = a) (v : Word) :
    decode (writeRecord a v) = .ok (r.writeInstr v) := h ▸ decode_writeRecord r v

/-- An instruction that raises a bus error is rejected with that error's code (R202, R204). -/
theorem exec_of_raise {i : Instr} {s : State} (c : ErrCode) (h : exec i s = .next (raiseBusError c s)) :
    exec i s = .next (rejectedWith (errorCode c) s) := by
  rw [h, raiseBusError_eq_rejectedWith]

/-- What R177, R179 and R181 have in common: a row that is the read of a window answers a rejection or the value. -/
theorem exec_of_windowRead {i : Instr} {s : State} {valid : Bool} {v : Word} (h : exec i s = .next (windowRead valid v s)) :
    (s.busy = true → exec i s = .next (rejectedWith 5 s)) ∧
    (s.busy = false → valid = false → exec i s = .next (rejectedWith 6 s)) ∧
    (s.busy = false → valid = true → exec i s = .next (acceptedWith v s)) := by
  refine ⟨fun hb => exec_of_raise .busy ?_, fun hb hv => exec_of_raise .notReady ?_, fun hb hv => ?_⟩
  · rw [h, windowRead_of_busy hb]
  · rw [h, windowRead_of_not_ready hb hv]
  · rw [h, windowRead_of_readable hb hv]
    rfl

/-- Settles O28: a window read of W[i], whose first four words are the key registers. -/
theorem rdExpwRespondsWord : Obligations.RdExpwRespondsWord := by
  refine ⟨fun i s => ?_, fun n s h hb he => ?_, fun a h1 h2 => regAt_eq_none_of_range (.inr (.inl ⟨h1, h2⟩))⟩
  · obtain ⟨hbusy, hnotready, hread⟩ := exec_of_windowRead (i := .rdExpw i) (s := s) rfl
    refine ⟨decode_read_at (Target.offset_expw_toNat i), hbusy, hnotready, fun v hb he hw => ?_⟩
    rw [hread hb he, wReg_of_w_some hw]
  · obtain ⟨-, -, hread⟩ := exec_of_windowRead (i := .rdExpw ⟨n.val, by omega⟩) (s := s) rfl
    have hvalue : s.wReg ⟨n.val, by omega⟩ = s.key[n] :=
      (wReg_of_w_some (h he) _).trans (expandedRegisters_getElem_of_lt s.key n.isLt)
    rw [hread hb he, hvalue]

/-- Settles O29: a window read of a row of RK (`blockRow_rk_of_w`). -/
theorem rdRkRespondsRow : Obligations.RdRkRespondsRow := by
  refine ⟨fun k r s => ?_, fun a h1 h2 => regAt_eq_none_of_range (.inr (.inr (.inl ⟨h1, h2⟩)))⟩
  obtain ⟨hbusy, hnotready, hread⟩ := exec_of_windowRead (i := .rdRk k r) (s := s) rfl
  refine ⟨decode_read_at (Target.offset_rk_toNat k r), hbusy, hnotready, fun v hb he hw => ?_⟩
  rw [hread hb he, blockRow_rk_of_w hw]

/-- Settles O30: a window read of a row of DRK (`blockRow_drk_of_w`), which for round keys 0 and 10 is the block of RK. -/
theorem rdDrkRespondsRow : Obligations.RdDrkRespondsRow := by
  refine ⟨fun k r s => ?_, fun a h1 _ => regAt_eq_none_of_range (.inr (.inr (.inr h1)))⟩
  obtain ⟨hbusy, hnotready, hread⟩ := exec_of_windowRead (i := .rdDrk k r) (s := s) rfl
  refine ⟨decode_read_at (Target.offset_drk_toNat k r), hbusy, hnotready, fun v hb hd hw => ⟨?_, fun hk he => ?_⟩⟩
  · rw [hread hb hd, blockRow_drk_of_w hw]
  · obtain ⟨-, -, hreadRk⟩ := exec_of_windowRead (i := .rdRk k r) (s := s) rfl
    rw [hread hb hd, hreadRk hb he, drk_getElem, if_neg (by omega)]

/-- Settles O33: the four ranges are the unmapped offsets, and both rows raise ERR_ADDR. -/
theorem unmappedRejected : Obligations.UnmappedRejected := by
  intro a v s
  refine ⟨exec_of_raise .addr rfl, exec_of_raise .addr rfl, fun hal h => ?_⟩
  have hun : unmappedOffset a = true := (unmappedOffset_iff_ranges a).mpr ⟨hal, by omega⟩
  rw [readRecord_eq, writeRecord_eq]
  exact ⟨decode_encode (i := .rdUnmapped a) hun, decode_encode (i := .wrUnmapped a v) hun⟩

/-- Settles O31: the three rows raise ERR_ACCESS whatever the state. -/
theorem windowWritesRejected : Obligations.WindowWritesRejected := fun i k r v _ =>
  ⟨decode_write_at (Target.offset_expw_toNat i) v, decode_write_at (Target.offset_rk_toNat k r) v,
    decode_write_at (Target.offset_drk_toNat k r) v, exec_of_raise .access rfl, exec_of_raise .access rfl, exec_of_raise .access rfl⟩

/-- Settles O25: RD_CMD raises ERR_ACCESS and looks at no field of the state. -/
theorem rdCmdRejected : Obligations.RdCmdRejected :=
  ⟨decode_readRecord .cmd, fun _ => exec_of_raise .access rfl⟩

/-- Settles O26: the word answered is `statusWord`, whose fields are read one by one. -/
theorem rdStatusRespondsFields : Obligations.RdStatusRespondsFields := by
  refine ⟨decode_readRecord .status, fun s => ?_⟩
  obtain ⟨hkeymask, herrcode, hop⟩ := statusWord_fields s
  exact ⟨statusWord s, exec_rdStatus s, statusWord_busy s, statusWord_encValid s, statusWord_decValid s, statusWord_err s,
    hkeymask, herrcode, hop, statusWord_upper s⟩

/-- Settles O20: `keyWrite` rejects while busy; otherwise it sets one register and one mask bit and clears the valid bits. -/
theorem wrKeyStoresAndInvalidates : Obligations.WrKeyStoresAndInvalidates := by
  refine ⟨fun n v s => ⟨decode_write_at (Target.offset_key_toNat n) v, fun hb => ?_, fun hb => ?_⟩, _, rfl, rfl, rfl⟩
  · exact exec_of_raise .busy (congrArg Host.Outcome.next (keyWrite_of_busy hb n v))
  · have hexec : exec (.wrKey n v) s = .next (respondOk 0 (invalidate (storeKey n v s))) :=
      congrArg Host.Outcome.next (keyWrite_of_idle hb n v)
    refine ⟨_, hexec, ?_, fun m hm => ?_, keymaskWith_getLsbD s.keymask n, rfl, rfl, rfl, rfl⟩
    · exact Vector.getElem_set_self n.isLt
    · exact Vector.getElem_set_ne n.isLt m.isLt (Fin.val_ne_of_ne hm.symm)

/-- Settles O19: the answer is KEY[n], and an accepted write (`wrKeyStoresAndInvalidates`) puts its word there. -/
theorem rdKeyRespondsKey : Obligations.RdKeyRespondsKey := by
  intro n s
  refine ⟨decode_read_at (Target.offset_key_toNat n), rfl, ?_, fun v hb => ?_⟩
  · have hreset : State.reset.key[n] = 0 := by decide +revert
    exact congrArg (fun w => Host.Outcome.next (acceptedWith w State.reset)) hreset
  · obtain ⟨hwrite, -⟩ := wrKeyStoresAndInvalidates
    obtain ⟨-, -, hidle⟩ := hwrite n v s
    obtain ⟨t, ht, hkey, -⟩ := hidle hb
    exact ⟨t, ht, congrArg (fun w => Host.Outcome.next (acceptedWith w t)) hkey⟩

end Sys2Proof.Claims

/-! PROOF. The round-key port (spec/43_register_access.md R184 to R186): what rk_valid and rk_data are for a driven request, first for
either block and then for each, in any state in which the request is driven. -/

namespace Sys2Proof.Machine

theorem portData_of_not_valid {s : State} {p : PortRequest} (h : portValid s p = false) : portData s p = 0 :=
  if_neg (Bool.eq_false_iff.mp h)

/-- An index past 10 is never valid (R186). -/
theorem portValid_of_bad_index (s : State) {p : PortRequest} (h : 11 ≤ p.idx.toNat) : portValid s p = false := by
  simp [portValid, show ¬p.idx.toNat ≤ 10 by omega]

/-- A request for DRK is not valid while DEC_VALID = 0 (R185). -/
theorem portValid_of_dec_invalid {s : State} {p : PortRequest} (hsel : p.sel = true) (hd : s.decValid = false) :
    portValid s p = false := by simp [portValid, hsel, hd]

theorem drivePort_frame (p : PortRequest) (s : State) : { drivePort p s with portReq := s.portReq, resp := s.resp } = s := rfl

section

variable {s : State} {sel : Bool} {k : Fin 11}

theorem rkValid_eq (hreq : s.portReq = { sel := sel, idx := BitVec.ofNat 4 k.val }) :
    s.rkValid = (!s.busy && if sel then s.decValid else s.encValid) := by
  have hk : k.val ≤ 10 := by omega
  simp only [State.rkValid, portValid, hreq, portIdx_toNat, hk, decide_true, Bool.and_true]

theorem rkData_of_not_valid (h : s.rkValid = false) : s.rkData = 0 := portData_of_not_valid h

/-- A valid port shows byte (r, c) of the selected block at bits 127-8(4r+c):120-8(4r+c) (R66). -/
theorem rkData_byte (hreq : s.portReq = { sel := sel, idx := BitVec.ofNat 4 k.val }) (h : s.rkValid = true) (r c : Fin 4) :
    s.rkData.extractLsb' (120 - 8 * (4 * r.val + c.val)) 8 = (if sel then s.drk[k] else s.rk[k])[4 * r.val + c.val] := by
  rw [rkValid_eq hreq, Bool.and_eq_true, Bool.not_eq_true'] at h
  obtain ⟨hb, hv⟩ := h
  rw [State.rkData, hreq, portData_of_readable hb sel hv k]
  exact extract_pack128 _ ⟨4 * r.val + c.val, by omega⟩

end

end Sys2Proof.Machine

namespace Sys2Proof.Claims

open Sys2Proof.Machine

/-- The 5-bit value of a request: rk_sel is bit 4, rk_idx the bits below (R79). -/
theorem decode_port_ofNat (sel : Bool) (k : Fin 11) :
    decode (.port (BitVec.ofNat 8 (16 * sel.toNat + k.val))) = .ok (if sel then .portDrk k else .portRk k) := by
  have hbyte : BitVec.ofNat 8 (16 * sel.toNat + k.val) = PortRequest.toByte ⟨sel, BitVec.ofNat 4 k.val⟩ := by decide +revert
  rw [hbyte, decode_toByte, decodePort_ofNat]

/-- The outputs in every state in which a request for encryption round key k is driven (R184). -/
theorem portRk_outputs {k : Fin 11} {s : State} (hreq : s.portReq = { sel := false, idx := BitVec.ofNat 4 k.val }) :
    s.rkValid = (!s.busy && s.encValid) ∧ (s.rkValid = false → s.rkData = 0) ∧
    ∀ v, s.rkValid = true → s.w = some v → ∀ r c : Fin 4,
      s.rkData.extractLsb' (120 - 8 * (4 * r.val + c.val)) 8 = roundKeyByte v k r c := by
  refine ⟨rkValid_eq hreq, rkData_of_not_valid, fun v h hw r c => ?_⟩
  rw [rkData_byte hreq h]
  exact rk_row_column_of_w hw k r c

/-- The outputs in every state in which a request for decryption round key k is driven (R185). -/
theorem portDrk_outputs {k : Fin 11} {s : State} (hreq : s.portReq = { sel := true, idx := BitVec.ofNat 4 k.val }) :
    s.rkValid = (!s.busy && s.decValid) ∧ (s.rkValid = false → s.rkData = 0) ∧
    ∀ v, s.rkValid = true → s.w = some v → ∀ r c : Fin 4,
      s.rkData.extractLsb' (120 - 8 * (4 * r.val + c.val)) 8 = (decRoundKeyRow v k r)[c] := by
  refine ⟨rkValid_eq hreq, rkData_of_not_valid, fun v h hw r c => ?_⟩
  rw [rkData_byte hreq h, ← blockRow_drk_of_w hw]
  exact (blockRow_getElem _ r c c.isLt).symm

/-- Settles O34: the port byte is the request's, driving it changes `portReq` alone, and `portRk_outputs` holds before and after. -/
theorem portRkOutputs : Obligations.PortRkOutputs := by
  refine fun k s => ⟨?_, ⟨_, rfl, rfl, drivePort_frame _ s, portRk_outputs rfl⟩, portRk_outputs⟩
  simpa using decode_port_ofNat false k

/-- Settles O35: as O34 with `portDrk_outputs`; EXPAND_ENC leaves OP = 1, so its completion leaves DEC_VALID = 0. -/
theorem portDrkOutputs : Obligations.PortDrkOutputs := by
  refine ⟨fun k s => ⟨?_, ⟨_, rfl, rfl, drivePort_frame _ s, portDrk_outputs rfl⟩, portDrk_outputs⟩, fun s t p hb hk ht hsel => ?_⟩
  · exact decode_port_ofNat true k
  · obtain ⟨u, hu, hop, -⟩ := command_starts_and_completes hb (.inl rfl) hk
    obtain rfl : u = t := Host.Outcome.next.inj (hu.symm.trans ht)
    have hdec : (complete u).decValid = false := by rw [complete_decValid, hop]; rfl
    have hvalid := portValid_of_dec_invalid hsel hdec
    exact ⟨hvalid, portData_of_not_valid hvalid⟩

/-- Settles O36: an index past 10 is never valid, and driving it changes `portReq` alone. -/
theorem portBadIndexOutputs : Obligations.PortBadIndexOutputs := by
  intro sel idx s h
  have hvalid : (drivePort ⟨sel, idx⟩ s).rkValid = false := portValid_of_bad_index _ h
  exact ⟨_, rfl, rfl, hvalid, rkData_of_not_valid hvalid, drivePort_frame _ s⟩

end Sys2Proof.Claims

/-! PROOF. Rejection and the error record (spec/60_exceptions.md R200 to R207): the priority table read at each register of the map, what
an instruction and a step do to the error record, and that a step always has a next state. -/

namespace Sys2Proof

/-! ### The ranges of the table name the registers of the map (R52, R203) -/

theorem Target.offset_in_key_iff (r : Target) : r.offset.toNat < 0x010 ↔ ∃ n, r = .key n := by
  cases r <;> simp <;> omega

theorem Target.offset_eq_cmd_iff (r : Target) : r.offset.toNat = 0x010 ↔ r = .cmd := by
  cases r <;> simp <;> omega

theorem Target.offset_eq_status_iff (r : Target) : r.offset.toNat = 0x014 ↔ r = .status := by
  cases r <;> simp <;> omega

theorem Target.offset_in_expw_iff (r : Target) : 0x100 ≤ r.offset.toNat ∧ r.offset.toNat ≤ 0x1AC ↔ ∃ i, r = .expw i := by
  cases r <;> simp <;> omega

theorem Target.offset_in_rk_iff (r : Target) : 0x200 ≤ r.offset.toNat ∧ r.offset.toNat ≤ 0x2AC ↔ ∃ k j, r = .rk k j := by
  cases r <;> simp <;> omega

theorem Target.offset_in_drk_iff (r : Target) : 0x300 ≤ r.offset.toNat ∧ r.offset.toNat ≤ 0x3AC ↔ ∃ k j, r = .drk k j := by
  cases r <;> simp <;> omega

end Sys2Proof

namespace Sys2Proof.Machine

/-! ### The priority table at a register (R203) -/

/-- The first condition that a window read meets. -/
def windowRejection (valid : Bool) (s : State) : Option ErrCode :=
  if s.busy then some .busy else if valid = false then some .notReady else none

/-- The first condition that a register's read meets. -/
def readRejection (s : State) : Target → Option ErrCode
  | .key _ | .status => none
  | .cmd => some .access
  | .expw _ | .rk _ _ => windowRejection s.encValid s
  | .drk _ _ => windowRejection s.decValid s

/-- The first condition that a CMD write meets (R150). -/
def cmdRejection (v : Word) (s : State) : Option ErrCode :=
  if s.busy then some .busy
  else if v ≠ 1 ∧ v ≠ 2 then some .cmd
  else if s.keymask ≠ 0xF then some .key
  else none

/-- The first condition that a register's write meets. -/
def writeRejection (v : Word) (s : State) : Target → Option ErrCode
  | .key _ => if s.busy then some .busy else none
  | .cmd => cmdRejection v s
  | .status => none
  | .expw _ | .rk _ _ | .drk _ _ => some .access

theorem rejection_of_misaligned {t : Txn} (h : t.addr.toNat % 4 ≠ 0) (s : State) : rejection t s = some .align := if_pos h

theorem rejection_of_badsize {t : Txn} (h : t.addr.toNat % 4 = 0) (hs : t.size ≠ 2) (s : State) : rejection t s = some .size := by
  rw [rejection, if_neg (not_not.mpr h), if_pos hs]

theorem rejection_of_unmapped {t : Txn} (h : t.addr.toNat % 4 = 0) (hs : t.size = 2) (hr : regAt t.addr = none) (s : State) :
    rejection t s = some .addr := by
  obtain ⟨-, hrange⟩ := (unmappedOffset_iff_ranges t.addr).mp ((unmappedOffset_iff t.addr).mpr ⟨h, hr⟩)
  rw [rejection, if_neg (not_not.mpr h), if_neg (not_not.mpr hs), if_pos (by omega)]

theorem rejection_of_mapped {t : Txn} {r : Target} (hs : t.size = 2) (ha : t.addr = r.offset) (s : State) :
    rejection t s = if t.we then writeRejection t.wdata s r else readRejection s r := by
  simp only [rejection, hs, ha, r.offset_toNat_mod_four, r.offset_in_key_iff, r.offset_eq_cmd_iff, r.offset_eq_status_iff,
    r.offset_in_expw_iff, r.offset_in_rk_iff, r.offset_in_drk_iff]
  cases t.we <;> cases r <;> simp [readRejection, writeRejection, windowRejection, cmdRejection]

/-! ### What a transaction answers to the table -/

/-- The instruction is rejected with the first condition of the table, or else it is accepted, with the error record cleared or kept. -/
def AnswersTable (first : Option ErrCode) (clears : Prop) (i : Instr) (s : State) : Prop :=
  match first with
  | some c => exec i s = .next (raiseBusError c s)
  | none => ∃ u v, exec i s = .next (respondOk v u) ∧
      (clears → u.err = false ∧ u.errcode = 0) ∧ (¬clears → u.err = s.err ∧ u.errcode = s.errcode)

section

variable {clears : Prop} {i : Instr} {s : State}

theorem answersTable_of_raise {c : ErrCode} (h : exec i s = .next (raiseBusError c s)) : AnswersTable (some c) clears i s := h

/-- An accepted transaction that is no STATUS write with bit 3 = 1 leaves the error record. -/
theorem answersTable_of_respond {u : State} {v : Word} (hclears : ¬clears) (h : exec i s = .next (respondOk v u)) (he : u.err = s.err)
    (hc : u.errcode = s.errcode) : AnswersTable none clears i s :=
  ⟨u, v, h, fun hyes => absurd hyes hclears, fun _ => ⟨he, hc⟩⟩

theorem answersTable_of_windowRead (hclears : ¬clears) {valid : Bool} {v : Word} (h : exec i s = .next (windowRead valid v s)) :
    AnswersTable (windowRejection valid s) clears i s := by
  rw [windowRejection]
  split_ifs with hb hv
  · exact answersTable_of_raise (h.trans (congrArg _ (windowRead_of_busy hb valid v)))
  · exact answersTable_of_raise (h.trans (congrArg _ (windowRead_of_not_ready (Bool.eq_false_iff.mpr hb) hv v)))
  · have hread := windowRead_of_readable (Bool.eq_false_iff.mpr hb) (Bool.of_not_eq_false hv) v
    exact answersTable_of_respond hclears (h.trans (congrArg _ hread)) rfl rfl

theorem answersTable_of_keyWrite (hclears : ¬clears) {n : Fin 4} {v : Word} (h : exec i s = .next (keyWrite n v s)) :
    AnswersTable (if s.busy then some .busy else none) clears i s := by
  split_ifs with hb
  · exact answersTable_of_raise (h.trans (congrArg _ (keyWrite_of_busy hb n v)))
  · have hstore := keyWrite_of_idle (Bool.eq_false_iff.mpr hb) n v
    exact answersTable_of_respond hclears (h.trans (congrArg _ hstore)) rfl rfl

/-- The table's conditions on a CMD write are the checks of R150 in their order. -/
theorem answersTable_of_cmdWrite (hclears : ¬clears) {v : Word} (h : exec i s = .next (cmdWrite v s)) :
    AnswersTable (cmdRejection v s) clears i s := by
  rw [cmdRejection]
  split_ifs with hb hv hk
  · exact answersTable_of_raise (h.trans (congrArg _ (cmdWrite_of_busy hb v)))
  · exact answersTable_of_raise (h.trans (congrArg _ (cmdWrite_of_illegal (Bool.eq_false_iff.mpr hb) hv.1 hv.2)))
  · have hl : legalCommand v = true := (legalCommand_iff v).mpr (by tauto)
    exact answersTable_of_raise (h.trans (congrArg _ (cmdWrite_of_incomplete_key (Bool.eq_false_iff.mpr hb) hl hk)))
  · have hl : legalCommand v = true := (legalCommand_iff v).mpr (by tauto)
    have haccepted := cmdWrite_of_accepted (Bool.eq_false_iff.mpr hb) hl (not_not.mp hk)
    exact answersTable_of_respond hclears (h.trans (congrArg _ haccepted)) rfl rfl

end

theorem readInstr_answersTable {clears : Prop} (hclears : ¬clears) (r : Target) (s : State) :
    AnswersTable (readRejection s r) clears r.readInstr s := by
  cases r with
  | key | status => exact answersTable_of_respond hclears rfl rfl rfl
  | cmd => exact answersTable_of_raise rfl
  | expw | rk | drk => exact answersTable_of_windowRead hclears rfl

/-- Among the writes the STATUS write alone clears the error record, and that when bit 3 is set (R176). -/
theorem writeInstr_answersTable (r : Target) (v : Word) (s : State) :
    AnswersTable (writeRejection v s r) (r = .status ∧ v.getLsbD 3 = true) (r.writeInstr v) s := by
  cases r with
  | key => exact answersTable_of_keyWrite (by simp) rfl
  | cmd => exact answersTable_of_cmdWrite (by simp) (exec_decodeCmd v s)
  | status =>
    refine ⟨if errClr v then clearError s else s, 0, rfl, fun ⟨_, hv⟩ => ?_, fun hv => ?_⟩
    · have hclr : errClr v = true := hv
      simp [hclr]
    · have hclr : errClr v = false := by simpa [errClr] using hv
      simp [hclr]
  | expw | rk | drk => exact answersTable_of_raise rfl

/-- The table read from the fields of a transaction is what the decoded instruction answers to (R202, R203). -/
theorem decodeTxn_answersTable (t : Txn) (s : State) :
    AnswersTable (rejection t s) (t.we = true ∧ t.addr = 0x014 ∧ t.wdata.getLsbD 3 = true) (decodeTxn t) s := by
  obtain ⟨hal, hd⟩ | ⟨hal, hs, hd⟩ | ⟨hal, hs, hr, hd⟩ | ⟨r, hs, ha, hd⟩ := decodeTxn_cases t <;> rw [hd]
  · rw [rejection_of_misaligned hal]
    exact answersTable_of_raise rfl
  · rw [rejection_of_badsize hal hs]
    exact answersTable_of_raise rfl
  · rw [rejection_of_unmapped hal hs hr]
    refine answersTable_of_raise ?_
    cases t.we <;> rfl
  · have hstatus : t.addr = 0x014 ↔ r = .status := by
      rw [ha, ← r.offset_eq_status_iff, ← BitVec.toNat_inj]
      rfl
    rw [rejection_of_mapped hs ha, hstatus]
    cases t.we
    · exact readInstr_answersTable (by simp) r s
    · simpa using writeInstr_answersTable r t.wdata s

/-! ### What a rejection changes (R201, R202) -/

theorem errorCode_range (c : ErrCode) : 1 ≤ errorCode c ∧ errorCode c ≤ 8 := by cases c <;> decide

theorem raiseBusError_frame (c : ErrCode) (s : State) :
    { raiseBusError c s with err := s.err, errcode := s.errcode, resp := s.resp } = s := by
  unfold raiseBusError recordError
  split <;> rfl

/-- An error response comes from a rejection: every other transaction is answered with ERRRESP = 0. -/
theorem exec_eq_raise_of_error {i : Instr} {s t : State} {v : Word} (ht : exec i s = .next t)
    (hresp : t.resp = some { err := true, rdata := v }) : v = 0 ∧ ∃ c, t = raiseBusError c s := by
  obtain ⟨c, he⟩ | ⟨_, he⟩ | ⟨_, _, -, -, he⟩ | ⟨_, -, -, -, -, he⟩ | ⟨_, -, -, he⟩ | ⟨_, -, he⟩ := exec_cases i s <;>
    cases he.symm.trans ht
  case inl => exact ⟨by simpa using hresp.symm, c, rfl⟩
  all_goals simp at hresp

/-! ### What clears a set error record (R206) -/

/-- An instruction keeps a set error record unless it is a STATUS write with bit 3 = 1. -/
theorem exec_error_record {i : Instr} {s t : State} (ht : exec i s = .next t) (hset : s.err = true) :
    (t.err = true ∧ t.errcode = s.errcode) ∨
    ∃ v, i = .wrStatus v ∧ v.getLsbD 3 = true ∧ t.err = false ∧ t.errcode = 0 := by
  obtain ⟨_, he⟩ | ⟨_, he⟩ | ⟨_, _, -, -, he⟩ | ⟨_, -, -, -, -, he⟩ | ⟨v, hi, hv, he⟩ | ⟨_, -, he⟩ := exec_cases i s <;>
    cases he.symm.trans ht
  case inr.inr.inr.inr.inl => exact .inr ⟨v, hi, hv, rfl, rfl⟩
  all_goals exact .inl (by simp [hset])

theorem engineTurn_error_record (s : State) : (engineTurn s).err = s.err ∧ (engineTurn s).errcode = s.errcode := by
  obtain ⟨-, h⟩ | ⟨-, -, h⟩ | ⟨-, -, h⟩ := engineTurn_cases s <;> simp [h]

/-- A step keeps a set error record unless it is a reset or runs a STATUS write with bit 3 = 1. -/
theorem step_error_record {s t : State} (ht : step s = .next t) (hset : s.err = true) :
    (t.err = true ∧ t.errcode = s.errcode) ∨ (∃ q, s.inbox = .reset :: q) ∨
    ∃ r q v, s.inbox = .record r :: q ∧ decode r = .ok (.wrStatus v) ∧ v.getLsbD 3 = true ∧ t.err = false ∧ t.errcode = 0 := by
  obtain ⟨-, he⟩ | ⟨q, -, he⟩ | ⟨q, hq, -⟩ | ⟨r, q, i, hq, hd, he⟩ | ⟨r, q, e, -, -, he⟩ := step_cases s
  · cases he.symm.trans ht
    obtain ⟨herr, hcode⟩ := engineTurn_error_record s
    exact .inl ⟨herr.trans hset, hcode⟩
  · cases he.symm.trans ht
    obtain ⟨herr, hcode⟩ := engineTurn_error_record (s.withInbox q)
    exact .inl ⟨herr.trans hset, hcode⟩
  · exact .inr (.inl ⟨q, hq⟩)
  · obtain hkept | ⟨v, rfl, hcleared⟩ := exec_error_record (he.symm.trans ht) hset
    · exact .inl hkept
    · exact .inr (.inr ⟨r, q, v, hq, hd, hcleared⟩)
  · cases he.symm.trans ht

/-! ### Every step has a next state (R200, R207) -/

/-- Every instruction has a next state and takes nothing more from the inbox. -/
theorem exec_next (i : Instr) (s : State) : ∃ t, exec i s = .next t ∧ t.inbox = s.inbox := by
  obtain ⟨_, he⟩ | ⟨_, he⟩ | ⟨_, _, -, -, he⟩ | ⟨_, -, -, -, -, he⟩ | ⟨_, -, -, he⟩ | ⟨_, -, he⟩ := exec_cases i s
  all_goals exact ⟨_, he, by simp⟩

theorem wellFormedInputs_tail {x : Stimulus} {q : List Stimulus} (h : wellFormedInputs (x :: q)) : wellFormedInputs q :=
  fun r hr => h r (List.mem_cons_of_mem x hr)

/-- A step whose inbox decodes has a next state whose inbox decodes: it takes the first thing out, or nothing when there is none. -/
theorem step_next_of_wellFormedInputs {s : State} (h : wellFormedInputs s.inbox) :
    ∃ t, step s = .next t ∧ wellFormedInputs t.inbox := by
  obtain ⟨-, he⟩ | ⟨q, hq, he⟩ | ⟨q, hq, he⟩ | ⟨r, q, i, hq, -, he⟩ | ⟨r, q, e, hq, hd, -⟩ := step_cases s
  · exact ⟨_, he, (engineTurn_inbox s).symm ▸ h⟩
  · refine ⟨_, he, ?_⟩
    rw [engineTurn_inbox]
    exact wellFormedInputs_tail (hq ▸ h)
  · exact ⟨_, he, wellFormedInputs_tail (hq ▸ h)⟩
  · obtain ⟨t, ht, hinbox⟩ := exec_next i (s.withInbox q)
    refine ⟨t, he.trans ht, ?_⟩
    rw [hinbox]
    exact wellFormedInputs_tail (hq ▸ h)
  · obtain ⟨i, hi⟩ := h r (by simp [hq])
    cases hd.symm.trans hi

theorem safeFor_of_wellFormedInputs (n : Nat) {s : State} (h : wellFormedInputs s.inbox) : SafeFor n s := by
  induction n generalizing s with
  | zero => exact ⟨s, rfl⟩
  | succ n ih =>
    obtain ⟨t, ht, hwf⟩ := step_next_of_wellFormedInputs h
    rw [SafeFor, run_succ_of_step n ht]
    exact ih hwf

end Sys2Proof.Machine

namespace Sys2Proof.Claims

open Sys2Proof.Machine

/-- A transaction that the table rejects is rejected with the table's code (R202). -/
theorem exec_of_rejection {t : Txn} {s : State} {c : ErrCode} (h : rejection t s = some c) :
    exec (decodeTxn t) s = .next (rejectedWith (errorCode c) s) := by
  have hanswer := decodeTxn_answersTable t s
  rw [h] at hanswer
  exact exec_of_raise c hanswer

/-- Settles O38: `decodeTxn_answersTable`, with the rejection written out and the accepted response read off. -/
theorem rejectionPriority : Obligations.RejectionPriority := by
  intro t s
  cases hr : rejection t s with
  | some c => exact exec_of_rejection hr
  | none =>
    have hanswer := decodeTxn_answersTable t s
    rw [hr] at hanswer
    obtain ⟨u, v, hexec, hclears, hkeeps⟩ := hanswer
    refine ⟨respondOk v u, v, hexec, rfl, ?_⟩
    split
    next hyes => exact hclears hyes
    next hno => exact hkeeps hno

/-- Settles O39: an error response comes from `raiseBusError` (`exec_eq_raise_of_error`), which writes the error record and the response. -/
theorem rejectionChangesOnlyErrorRecord : Obligations.RejectionChangesOnlyErrorRecord := by
  intro i s t v ht hresp _
  obtain ⟨hv, c, rfl⟩ := exec_eq_raise_of_error ht hresp
  exact ⟨hv, raiseBusError_err c s, fun hset => by simp [hset], fun hclear => by simpa [hclear] using errorCode_range c,
    raiseBusError_frame c s⟩

/-- Settles O41: `step_error_record` for a step; after a clear ERR is 0, so the next rejection (`exec_of_rejection`) writes its own code. -/
theorem errorClearedOnlyByStatusWriteOrReset : Obligations.ErrorClearedOnlyByStatusWriteOrReset := by
  refine ⟨fun s t ht hset hchanged => ?_, fun s q hq => ?_, fun s v hv => ?_⟩
  · obtain ⟨herr, hcode⟩ | hcause := step_error_record ht hset
    · simp [herr, hcode] at hchanged
    · exact hcause
  · obtain ⟨-, -, hreset, -⟩ := stepRunsDecodedInstruction
    exact ⟨_, hreset s q hq, rfl, rfl⟩
  · obtain ⟨-, hclear, -⟩ := wrStatusClearsError v s
    exact ⟨_, hclear hv, rfl, rfl, fun x e hx => ⟨_, exec_of_rejection hx, rfl, rfl⟩⟩

/-- Settles O52: a step with a well-formed inbox leads to a state with one (`step_next_of_wellFormedInputs`), for any number of steps. -/
theorem machineNeverStops : Obligations.MachineNeverStops := fun n _ h => safeFor_of_wellFormedInputs n h

end Sys2Proof.Claims

/-! PROOF. The outputs around reset and the hazards (spec/70_reset_and_hazards.md R231, R243): what the host and the consumer see after
reset, what takes rk_valid away at once, and that only the completion raises it. -/

namespace Sys2Proof.Machine

/-- rk_valid read as its three conditions (R184, R185). -/
theorem portValid_iff (s : State) (p : PortRequest) :
    portValid s p = true ↔ s.busy = false ∧ (if p.sel then s.decValid else s.encValid) = true ∧ p.idx.toNat ≤ 10 := by
  simp [portValid, and_assoc]

/-- For one request rk_valid rises only when BUSY falls or a valid bit rises: the index does not change. -/
theorem portValid_raised {s t : State} {p : PortRequest} (hs : portValid s p = false) (ht : portValid t p = true) :
    (s.busy = true ∧ t.busy = false) ∨
    (s.encValid = false ∧ t.encValid = true) ∨ (s.decValid = false ∧ t.decValid = true) := by
  obtain ⟨hbt, hvt, hidx⟩ := (portValid_iff t p).mp ht
  cases hb : s.busy with
  | true => exact .inl ⟨rfl, hbt⟩
  | false =>
    have hvs : (if p.sel then s.decValid else s.encValid) = false := by simpa [portValid, hb, hidx] using hs
    cases hsel : p.sel with
    | false => exact .inr (.inl ⟨by simpa [hsel] using hvs, by simpa [hsel] using hvt⟩)
    | true => exact .inr (.inr ⟨by simpa [hsel] using hvs, by simpa [hsel] using hvt⟩)

theorem step_of_reset {s : State} {q : List Stimulus} (hq : s.inbox = .reset :: q) : step s = .next (resetEvent (s.withInbox q)) := by
  simp [step, hq]

/-- No output is valid right after a reset (R231, R243). -/
theorem port_after_reset (s : State) (p : PortRequest) : portValid (resetEvent s) p = false ∧ portData (resetEvent s) p = 0 :=
  port_of_invalid rfl rfl p

/-- A step that raises rk_valid for a request completes a busy engine, at a clock cycle or with nothing left in the inbox. -/
theorem step_raises_port {s t : State} {p : PortRequest} (ht : step s = .next t) (hs : portValid s p = false)
    (hv : portValid t p = true) :
    s.busy = true ∧ s.cnt ≤ 1 ∧
      ((s.inbox = [] ∧ t = complete s) ∨ ∃ q, s.inbox = .clock :: q ∧ t = complete (s.withInbox q)) := by
  obtain ⟨hb, hend⟩ | hvalid := portValid_raised hs hv
  · have hno_reset : ∀ q, s.inbox ≠ .reset :: q := by
      intro q hq
      cases (step_of_reset hq).symm.trans ht
      simp [port_after_reset] at hv
    obtain ⟨-, hcomplete⟩ := step_of_busy hb ht hno_reset
    exact ⟨hb, hcomplete hend⟩
  · exact step_valid ht hvalid

end Sys2Proof.Machine

namespace Sys2Proof.Claims

open Sys2Proof.Machine

/-- An accepted command takes every output away at once (R150, R243). -/
theorem port_after_command {v : Word} {s : State} (hb : s.busy = false) (hv : v = 1 ∨ v = 2) (hk : s.keymask = 0xF) (p : PortRequest) :
    ∃ t, exec (decodeCmd v) s = .next t ∧ portValid t p = false ∧ portData t p = 0 := by
  obtain ⟨t, ht, -, -, henc, hdec, -⟩ := command_starts_and_completes hb hv hk
  exact ⟨t, ht, port_of_invalid henc hdec p⟩

/-- Settles O37: a KEY write, a command and a reset clear both valid bits (`port_of_invalid`), and a step that raises rk_valid is the
completion (`step_raises_port`). -/
theorem portValidFallsAtOnce : Obligations.PortValidFallsAtOnce := by
  refine ⟨fun p n v s hb => ?_, fun p s hb hk => ?_, fun p s q hq => ?_, fun p s t ht hs hv => ?_⟩
  · exact ⟨_, congrArg Host.Outcome.next (keyWrite_of_idle hb n v), port_of_invalid rfl rfl p⟩
  · exact ⟨port_after_command hb (.inl rfl) hk p, port_after_command hb (.inr rfl) hk p⟩
  · exact ⟨_, step_of_reset hq, port_after_reset _ p⟩
  · obtain ⟨hb, hc, ⟨hq, -⟩ | ⟨q, hq, -⟩⟩ := step_raises_port ht hs hv
    · exact ⟨hb, hc, .inl hq⟩
    · exact ⟨hb, hc, .inr ⟨q, hq⟩⟩

/-- Settles O48: the reset state is idle with both valid bits 0, so a window read finds its output not ready (`exec_of_windowRead`) and
the port shows nothing; STATUS and KEY hold their reset values. -/
theorem afterResetHostView : Obligations.AfterResetHostView := by
  refine ⟨?_, fun n => ?_, fun i => ?_, fun k r => ⟨?_, ?_⟩, port_after_reset State.reset⟩
  · have hstatus : statusWord State.reset = 0 := statusWord_resetEvent State.reset
    exact congrArg (fun v => Host.Outcome.next (acceptedWith v State.reset)) hstatus
  · obtain ⟨-, -, hread, -⟩ := rdKeyRespondsKey n State.reset
    exact hread
  · obtain ⟨-, hnotready, -⟩ := exec_of_windowRead (i := .rdExpw i) (s := State.reset) rfl
    exact hnotready rfl rfl
  · obtain ⟨-, hnotready, -⟩ := exec_of_windowRead (i := .rdRk k r) (s := State.reset) rfl
    exact hnotready rfl rfl
  · obtain ⟨-, hnotready, -⟩ := exec_of_windowRead (i := .rdDrk k r) (s := State.reset) rfl
    exact hnotready rfl rfl

end Sys2Proof.Claims
